-- ==== Sys2Proof/Word.lean ====
section
/-! DEFINITION. The two sizes of value this hardware moves: the byte and the nibble (00_scope.md R10). Bit 0 is the
least significant bit and every value is unsigned. -/

namespace Sys2Proof

/-- A byte: 8 bits, unsigned (R10). -/
abbrev Byte := BitVec 8

/-- A nibble: 4 bits, unsigned (R10). -/
abbrev Nibble := BitVec 4

end Sys2Proof
end

