-- ==== Sys2Proof/Syntax.lean ====
section
/-! DEFINITION. The names of the machine's lines and operand kinds, the event alphabet of the history, and the ONE
inductive of instructions: one constructor per row of spec/opcode_table.json (30_encoding.md R93). -/

namespace Sys2Proof

/-- The four things that can fail: three control lines and the bus (60_exceptions.md R176). -/
inductive Line where
  | rs
  | rw
  | en
  | bus
  deriving DecidableEq, Repr

/-- The tag of a `Deliverable`: an instruction byte or a raw data byte (00_scope.md R16, 30_encoding.md R76). -/
inductive Kind where
  | instr
  | data
  deriving DecidableEq, Repr

/-- One entry of the event history: a primitive action attempted, or the marker of a failed one (30_encoding.md R85). -/
inductive Event where
  | rsLow
  | rsHigh
  | rwLow
  | rwHigh
  | eLow
  | eHigh
  | delayUs (n : Nibble)
  | busWrite (v : Nibble)
  | busRead (v : Nibble)
  | fail (line : Line)
  deriving DecidableEq, Repr

/-- The rows of spec/opcode_table.json, in the table's order. `db` is the operand byte of a command word: the rows
whose `DB` is ignored carry it, so that the command latch `cmd_q` holds the word presented (R29, R77). -/
inductive Instr where
  /-- STATE: the status poll (R120, R121); `db` is ignored (R77). -/
  | state (db : Byte)
  /-- WRITE_INSTR `i` (R134). -/
  | writeInstr (i : Byte)
  /-- WRITE_DATA `b` (R135). -/
  | writeData (b : Byte)
  /-- RESERVED_DATA_READ: the refused quarter of the command words (R80, R139). -/
  | reservedDataRead (db : Byte)
  /-- CLEAR_DISPLAY: WRITE_INSTR 0x01 (R166). -/
  | clearDisplay
  /-- RETURN_HOME: WRITE_INSTR 0x02 (R167). -/
  | returnHome
  /-- RS_LOW (R101). -/
  | rsLow
  /-- RS_HIGH (R102). -/
  | rsHigh
  /-- RW_LOW (R103). -/
  | rwLow
  /-- RW_HIGH (R104). -/
  | rwHigh
  /-- E_LOW (R106). -/
  | eLow
  /-- E_HIGH (R105). -/
  | eHigh
  /-- DELAY_US `n` (R107). -/
  | delayUs (n : Nibble)
  /-- BUS_WRITE `v` (R108). -/
  | busWrite (v : Nibble)
  /-- BUS_READ (R109). `v` is the nibble a recorded event holds; the action has no operand and does not look at it. -/
  | busRead (v : Nibble)
  /-- FAIL `line`: the failure on `line` (R178). -/
  | fail (line : Line)
  /-- PULSE_ENABLE (R110). -/
  | pulseEnable
  /-- DECODE_STATUS `v` (R113). -/
  | decodeStatus (v : Byte)
  /-- SPLIT `b` (R111). -/
  | split (b : Byte)
  /-- JOIN `l` `h`, `l` read first (R112). -/
  | join (l h : Nibble)
  /-- FACADE_STATE (R148). -/
  | facadeState (db : Byte)
  /-- FACADE_WRITE of a `Deliverable` (R149). -/
  | facadeWrite (kind : Kind) (b : Byte)
  /-- WRITE_BYTE_BLOCKING `b` (R150). -/
  | writeByteBlocking (b : Byte)
  /-- WRITE_BYTES `[b0, …]` (R151). -/
  | writeBytes (bs : List Byte)
  /-- WRITE_CHAR `c`, `c` the character's code, which need not fit a byte (R152). -/
  | writeChar (c : Nat)
  deriving DecidableEq, Repr

end Sys2Proof
end

