-- ==== Sys2Proof/Config.lean ====
section
/-! DEFINITION. What is fixed for a machine and what the spec leaves open: the constants of 00_scope.md R7, the open
parameters of R8 and R9, the environment's answers past the script that State holds. An opaque constant has no body: no
proof can know its value. -/

namespace Sys2Proof

/-- A logic level a line can be driven to or sampled at: low is bit 0, high is bit 1 (00_scope.md R11). -/
inductive Logic where
  | low
  | high
  deriving DecidableEq, Repr, Inhabited

/-- The "4-element ordered sequence" of the bus capability, element 0 first (30_encoding.md R84). -/
structure Bus4 where
  e0 : Logic
  e1 : Logic
  e2 : Logic
  e3 : Logic
  deriving DecidableEq, Repr, Inhabited

/-! ## The four opaque error types (R8)

Each is an argument of the model: which numbers name its values is an opaque constant. It has one value at least (log entry
10). No definition inspects a value. -/

/-- Which numbers name the values of `ErrInfo_RS` beside the first: OPEN (R8, D14). -/
opaque Config.errRs : Nat → Bool

/-- Which numbers name the values of `ErrInfo_RW` beside the first: OPEN (R8, D14). -/
opaque Config.errRw : Nat → Bool

/-- Which numbers name the values of `ErrInfo_EN` beside the first: OPEN (R8, D14). -/
opaque Config.errEn : Nat → Bool

/-- Which numbers name the values of `ErrInfo_BUS` beside the first: OPEN (R8, D14). -/
opaque Config.errBus : Nat → Bool

/-- `ErrInfo_RS`: the error value of the register-select pin (R8, 60_exceptions.md R176). -/
inductive ErrInfoRs where
  | first
  | other (n : Nat) (member : Config.errRs n = true)
  deriving DecidableEq, Repr, Inhabited

/-- `ErrInfo_RW`: the error value of the read/write pin (R8, R176). -/
inductive ErrInfoRw where
  | first
  | other (n : Nat) (member : Config.errRw n = true)
  deriving DecidableEq, Repr, Inhabited

/-- `ErrInfo_EN`: the error value of the enable pin (R8, R176). -/
inductive ErrInfoEn where
  | first
  | other (n : Nat) (member : Config.errEn n = true)
  deriving DecidableEq, Repr, Inhabited

/-- `ErrInfo_BUS`: the error value of the bus (R8, R176). -/
inductive ErrInfoBus where
  | first
  | other (n : Nat) (member : Config.errBus n = true)
  deriving DecidableEq, Repr, Inhabited

/-- What an error answer carries: a value of each type, of which the line that asked takes its own and no other is seen (R43:
"`err(e)` with `e` of that line's `ErrInfo` type"; log entry 10). -/
structure ErrInfos where
  rs : ErrInfoRs
  rw : ErrInfoRw
  en : ErrInfoEn
  bus : ErrInfoBus
  deriving DecidableEq, Repr, Inhabited

/-- One answer of the environment to a fallible action: ok, with the four levels a BUS_READ samples (the other actions do
not look at them), or an error (10_state.md R43). -/
inductive Answer where
  | ok (levels : Bus4)
  | err (e : ErrInfos)
  deriving DecidableEq, Repr, Inhabited

/-- INIT_LINES: the level of RS, RW, E and the data lines before the engine first drives them (R9). The levels are `none`
for `U`. -/
structure InitLines where
  rs : Option Logic
  rw : Option Logic
  en : Option Logic
  db : Option Nibble
  deriving DecidableEq, Repr

/-- The spec's default for INIT_LINES: `U` for each (10_state.md R44). -/
def Config.initLines : InitLines := { rs := none, rw := none, en := none, db := none }

/-- FREE VALUE (log entry 2): the environment's answer to the `n`-th fallible action, where State's own script of answers
has run out (R43, D21). Nothing constrains it. -/
opaque Config.envAnswer : Nat → Answer

/-- FREE VALUE (log entry 8): the error value that goes with a failure taken with no failing action before it. -/
opaque Config.freeErrInfo : Nat → ErrInfos

/-- The members a build adds to INSTR_SET besides the two the document names (R9, 44_instruction_table.md R168): OPEN. -/
opaque Config.extraInstrs : List Byte

/-- INSTR_SET: contains 0x01 and 0x02 and whatever a build adds (R168). -/
def Config.instrSet : List Byte := 0x01#8 :: 0x02#8 :: Config.extraInstrs

/-- CLK_PER_US less one: OPEN (R9, D17). -/
opaque Config.clkPerUsLessOne : Nat

/-- CLK_PER_US: clock ticks per microsecond, at least 1 (R9). -/
def Config.clkPerUs : Nat := Config.clkPerUsLessOne + 1

/-- ERR_W: the width in bits of the error-info port of the clocked rendering: OPEN (R9, D14, D17). -/
opaque Config.errW : Nat

/-- How the error-info port's bits name an error value of each line in the clocked rendering: OPEN (D14; log entry 13). -/
opaque Config.errOfPort : BitVec Config.errW → ErrInfos

/-- DB_OE_POLICY: when a tri-state bus driver is enabled, given the history of EVT8 bytes: OPEN (R9, 20_memory.md R66). -/
opaque Config.dbOePolicy : List Byte → Bool

/-- DATA_LINES (R7). -/
def Config.dataLines : Nat := 4

/-- CONTROL_LINES: RS, RW, E (R7). -/
def Config.controlLines : Nat := 3

/-- PULSES_PER_BYTE (R7). -/
def Config.pulsesPerByte : Nat := 2

/-- T_EH_MIN, in microseconds: the argument of the delay while E is high (R7, 40_line_primitives.md R107). -/
def Config.tEhMin : Nibble := 1

/-- T_EL_MIN, in microseconds: the argument of the delay after E has gone low (R7, R107). -/
def Config.tElMin : Nibble := 1

/-- BF_BIT (R7). -/
def Config.bfBit : Nat := 7

end Sys2Proof
end

