-- ==== Sys2Proof/WellFormed.lean ====
section
/-! DEFINITION. The well-formedness check on a command, which refuses by name what the document makes unconstructible or
gives no meaning (44_instruction_table.md R169, 60_exceptions.md R190). The machine itself has no such check (R169). -/

namespace Sys2Proof

/-- Why a term is no well-formed instruction. -/
inductive IllFormed where
  /-- The operand of a write of kind Instr is not in INSTR_SET (R169, U10). -/
  | notInInstrSet (i : Byte)
  /-- A character wider than one byte (R152, U17). -/
  | wideCharacter (c : Nat)
  deriving DecidableEq, Repr

/-- A byte that is to go out as a `CompiledInstr`. -/
def checkInstrByte (set : List Byte) (i : Byte) : Except IllFormed Unit :=
  if set.contains i then .ok () else .error (.notInInstrSet i)

/-- The check, with INSTR_SET as an argument (R168: "A model takes INSTR_SET as an argument"). -/
def Instr.check (set : List Byte) : Instr → Except IllFormed Unit
  | .writeInstr i => checkInstrByte set i
  | .facadeWrite .instr i => checkInstrByte set i
  | .facadeWrite .data _ => .ok ()
  | .clearDisplay => checkInstrByte set 0x01#8
  | .returnHome => checkInstrByte set 0x02#8
  | .writeChar c => if c < 256 then .ok () else .error (.wideCharacter c)
  | .state _ => .ok ()
  | .writeData _ => .ok ()
  | .reservedDataRead _ => .ok ()
  | .rsLow => .ok ()
  | .rsHigh => .ok ()
  | .rwLow => .ok ()
  | .rwHigh => .ok ()
  | .eLow => .ok ()
  | .eHigh => .ok ()
  | .delayUs _ => .ok ()
  | .busWrite _ => .ok ()
  | .busRead _ => .ok ()
  | .fail _ => .ok ()
  | .pulseEnable => .ok ()
  | .decodeStatus _ => .ok ()
  | .split _ => .ok ()
  | .join _ _ => .ok ()
  | .facadeState _ => .ok ()
  | .writeByteBlocking _ => .ok ()
  | .writeBytes _ => .ok ()

/-- Well-formed in a build whose instruction table is `set`. -/
def Instr.wellFormedIn (set : List Byte) (i : Instr) : Bool :=
  match i.check set with
  | .ok _ => true
  | .error _ => false

/-- Well-formed in this build. -/
abbrev Instr.WellFormed (i : Instr) : Prop := i.wellFormedIn Config.instrSet = true

end Sys2Proof
end

