-- ==== Sys2Proof/Decode.lean ====
section
/-! DEFINITION. The encodings of 30_encoding.md: a decoder per format, total, rejecting by name; the encoder, written from
the same tables; the opcode table's rows. -/

namespace Sys2Proof

/-- The fixed-width formats an instruction is written in (30_encoding.md R75, R93). `BYTE8` has two rows, SPLIT and JOIN,
with the same pattern: the caller names which. -/
inductive Format where
  | cmd10
  | lcdi8
  | evt8
  | evt8x4
  | status8
  | split8
  | join8
  deriving DecidableEq, Repr

/-- The width of a format in bits (R75). -/
def Format.width : Format → Nat
  | .cmd10 => 10
  | .lcdi8 => 8
  | .evt8 => 8
  | .evt8x4 => 32
  | .status8 => 8
  | .split8 => 8
  | .join8 => 8

/-- A word of a format, as a number, bit 0 its least significant bit. -/
structure Code where
  fmt : Format
  bits : Nat
  deriving DecidableEq, Repr

/-- Why a word is no instruction. -/
inductive Undecoded where
  /-- The number does not fit the format's width. -/
  | tooWide
  /-- An EVT8 byte that is never recorded: codes 0x9 to 0xE, or a nonzero argument where R85 gives none (R88, U20). -/
  | unusedEvent
  /-- Four EVT8 bytes that are not one enable pulse (R110). -/
  | notOnePulse
  deriving DecidableEq, Repr

/-! ## The command word (R76) -/

/-- `CMD10`: RS in bit 9, RW in bit 8, DB in bits 7:0 (R76). -/
def cmd10 (rs rw : Bool) (db : Byte) : BitVec 10 :=
  BitVec.ofBool rs ++ BitVec.ofBool rw ++ db

/-- The two top bits are the whole decode, the (RS, RW) pair of the access asked for (R77 to R80, R92). -/
def decodeCmd10 (w : BitVec 10) : Instr :=
  let db : Byte := w.extractLsb' 0 8
  match w.getLsbD 9, w.getLsbD 8 with
  | false, false => .writeInstr db
  | false, true => .state db
  | true, false => .writeData db
  | true, true => .reservedDataRead db

/-- The command word of a write (R78, R79). -/
def writeWord (kind : Kind) (b : Byte) : BitVec 10 :=
  match kind with
  | .instr => cmd10 false false b
  | .data => cmd10 true false b

/-- The command word of a status poll (R77). -/
def stateWord (db : Byte) : BitVec 10 := cmd10 false true db

/-! ## The event byte (R85) -/

/-- The line codes of R86: RS, RW, EN, BUS. -/
def Line.code : Line → BitVec 2
  | .rs => 0
  | .rw => 1
  | .en => 2
  | .bus => 3

/-- The line a code names. -/
def Line.ofCode (c : BitVec 2) : Line :=
  if c = 0 then .rs else if c = 1 then .rw else if c = 2 then .en else .bus

/-- `EVT8`: the code in the upper nibble, the argument in the lower (R85). -/
def Event.evt8 : Event → Byte
  | .rsLow => 0x00#8
  | .rsHigh => 0x10#8
  | .rwLow => 0x20#8
  | .rwHigh => 0x30#8
  | .eLow => 0x40#8
  | .eHigh => 0x50#8
  | .delayUs n => 0x6#4 ++ n
  | .busWrite v => 0x7#4 ++ v
  | .busRead v => 0x8#4 ++ v
  | .fail l => 0xF#4 ++ (0#2 ++ l.code)

/-- The event a byte records; `none` for a byte that is no row of R85's table. DESIGN CHOICE, log entry 18: the bytes 0x60 and
0x62 to 0x6F are read as `DELAY_US n` although R88 says that no history holds one. Safe: no step records one. -/
def decodeEvent (b : Byte) : Option Event :=
  let code : Nibble := b.extractLsb' 4 4
  let arg : Nibble := b.extractLsb' 0 4
  if code = 0x6#4 then some (.delayUs arg)
  else if code = 0x7#4 then some (.busWrite arg)
  else if code = 0x8#4 then some (.busRead arg)
  else if code = 0xF#4 then
    (if arg.extractLsb' 2 2 = 0#2 then some (.fail (Line.ofCode (arg.extractLsb' 0 2))) else none)
  else if b = 0x00#8 then some .rsLow
  else if b = 0x10#8 then some .rsHigh
  else if b = 0x20#8 then some .rwLow
  else if b = 0x30#8 then some .rwHigh
  else if b = 0x40#8 then some .eLow
  else if b = 0x50#8 then some .eHigh
  else none

/-- The row of the opcode table an event stands for. -/
def Event.instr : Event → Instr
  | .rsLow => .rsLow
  | .rsHigh => .rsHigh
  | .rwLow => .rwLow
  | .rwHigh => .rwHigh
  | .eLow => .eLow
  | .eHigh => .eHigh
  | .delayUs n => .delayUs n
  | .busWrite v => .busWrite v
  | .busRead v => .busRead v
  | .fail l => .fail l

/-- The instruction an EVT8 byte stands for. -/
def decodeEvt8 (b : Byte) : Except Undecoded Instr :=
  match decodeEvent b with
  | some e => .ok e.instr
  | none => .error .unusedEvent

/-- The four bytes of one enable pulse, the first one most significant (R85, R93, R110). -/
def pulseWord : BitVec 32 := 0x50#8 ++ 0x61#8 ++ 0x40#8 ++ 0x61#8

/-- `EVT8x4`: the one word of this format is the enable pulse (R93, R110). -/
def decodeEvt8x4 (w : BitVec 32) : Except Undecoded Instr :=
  if w = pulseWord then .ok .pulseEnable else .error .notOnePulse

/-! ## The instruction byte (R87) -/

/-- `LCDI8`: the two constants the document names; any other byte is the payload of WRITE_INSTR and no more (R75, R87). -/
def decodeLcdi8 (b : Byte) : Instr :=
  if b = 0x01#8 then .clearDisplay else if b = 0x02#8 then .returnHome else .writeInstr b

/-! ## The decoder over all formats -/

/-- The instruction a word of a format stands for, total on every number. -/
def decode (f : Format) (w : Nat) : Except Undecoded Instr :=
  if w < 2 ^ f.width then
    match f with
    | .cmd10 => .ok (decodeCmd10 (BitVec.ofNat 10 w))
    | .lcdi8 => .ok (decodeLcdi8 (BitVec.ofNat 8 w))
    | .evt8 => decodeEvt8 (BitVec.ofNat 8 w)
    | .evt8x4 => decodeEvt8x4 (BitVec.ofNat 32 w)
    | .status8 => .ok (.decodeStatus (BitVec.ofNat 8 w))
    | .split8 => .ok (.split (BitVec.ofNat 8 w))
    | .join8 => .ok (.join ((BitVec.ofNat 8 w).extractLsb' 0 4) ((BitVec.ofNat 8 w).extractLsb' 4 4))
  else .error .tooWide

/-- Decode one `Code`. -/
def Code.decode (c : Code) : Except Undecoded Instr := Sys2Proof.decode c.fmt c.bits

/-! ## The encoder -/

/-- One CMD10 word as a code. -/
def Code.ofCmd (w : BitVec 10) : Code := { fmt := .cmd10, bits := w.toNat }

/-- One EVT8 byte as a code. -/
def Code.ofEvent (e : Event) : Code := { fmt := .evt8, bits := e.evt8.toNat }

/-- The words of an instruction. Every row is one word but WRITE_BYTES, which is one command word a byte (R93, R151).
DESIGN CHOICE (log entry 17): a character wider than a byte, which R152 puts outside the spec and the check and `exec` refuse, is
given the word of its low byte. -/
def encode : Instr → List Code
  | .state db => [.ofCmd (stateWord db)]
  | .writeInstr i => [.ofCmd (writeWord .instr i)]
  | .writeData b => [.ofCmd (writeWord .data b)]
  | .reservedDataRead db => [.ofCmd (cmd10 true true db)]
  | .clearDisplay => [{ fmt := .lcdi8, bits := 0x01 }]
  | .returnHome => [{ fmt := .lcdi8, bits := 0x02 }]
  | .rsLow => [.ofEvent .rsLow]
  | .rsHigh => [.ofEvent .rsHigh]
  | .rwLow => [.ofEvent .rwLow]
  | .rwHigh => [.ofEvent .rwHigh]
  | .eLow => [.ofEvent .eLow]
  | .eHigh => [.ofEvent .eHigh]
  | .delayUs n => [.ofEvent (.delayUs n)]
  | .busWrite v => [.ofEvent (.busWrite v)]
  | .busRead v => [.ofEvent (.busRead v)]
  | .fail l => [.ofEvent (.fail l)]
  | .pulseEnable => [{ fmt := .evt8x4, bits := pulseWord.toNat }]
  | .decodeStatus v => [{ fmt := .status8, bits := v.toNat }]
  | .split b => [{ fmt := .split8, bits := b.toNat }]
  | .join l h => [{ fmt := .join8, bits := (h ++ l).toNat }]
  | .facadeState db => [.ofCmd (stateWord db)]
  | .facadeWrite k b => [.ofCmd (writeWord k b)]
  | .writeByteBlocking b => [.ofCmd (writeWord .data b)]
  | .writeBytes bs => bs.map fun b => .ofCmd (writeWord .data b)
  | .writeChar c => [.ofCmd (writeWord .data (BitVec.ofNat 8 c))]

/-- The core instructions a row's words decode to: the row itself, but for the facade's rows, whose words are those of the
command they issue (R91, R93). Of WRITE_CHAR for a character wider than a byte this is the model's choice (log entry 17). -/
def Instr.core : Instr → List Instr
  | .facadeState db => [.state db]
  | .facadeWrite .instr b => [.writeInstr b]
  | .facadeWrite .data b => [.writeData b]
  | .writeByteBlocking b => [.writeData b]
  | .writeBytes bs => bs.map .writeData
  | .writeChar c => [.writeData (BitVec.ofNat 8 c)]
  | i => [i]

/-- The rows of class `pseudo` (R93). -/
def Instr.isPseudo : Instr → Bool
  | .facadeState _ => true
  | .facadeWrite _ _ => true
  | .writeByteBlocking _ => true
  | .writeBytes _ => true
  | .writeChar _ => true
  | _ => false

/-! ## The opcode table (spec/opcode_table.json) -/

/-- `format`, `match` and `mask` of a row. -/
structure Row where
  fmt : Format
  value : Nat
  mask : Nat
  deriving DecidableEq, Repr

/-- The row of spec/opcode_table.json each constructor stands for. -/
def Instr.row : Instr → Row
  | .state _ => ⟨.cmd10, 0x100, 0x300⟩
  | .writeInstr _ => ⟨.cmd10, 0x000, 0x300⟩
  | .writeData _ => ⟨.cmd10, 0x200, 0x300⟩
  | .reservedDataRead _ => ⟨.cmd10, 0x300, 0x300⟩
  | .clearDisplay => ⟨.lcdi8, 0x01, 0xFF⟩
  | .returnHome => ⟨.lcdi8, 0x02, 0xFF⟩
  | .rsLow => ⟨.evt8, 0x00, 0xFF⟩
  | .rsHigh => ⟨.evt8, 0x10, 0xFF⟩
  | .rwLow => ⟨.evt8, 0x20, 0xFF⟩
  | .rwHigh => ⟨.evt8, 0x30, 0xFF⟩
  | .eLow => ⟨.evt8, 0x40, 0xFF⟩
  | .eHigh => ⟨.evt8, 0x50, 0xFF⟩
  | .delayUs _ => ⟨.evt8, 0x60, 0xF0⟩
  | .busWrite _ => ⟨.evt8, 0x70, 0xF0⟩
  | .busRead _ => ⟨.evt8, 0x80, 0xF0⟩
  | .fail _ => ⟨.evt8, 0xF0, 0xFC⟩
  | .pulseEnable => ⟨.evt8x4, 0x50614061, 0xFFFFFFFF⟩
  | .decodeStatus _ => ⟨.status8, 0x00, 0x00⟩
  | .split _ => ⟨.split8, 0x00, 0x00⟩
  | .join _ _ => ⟨.join8, 0x00, 0x00⟩
  | .facadeState _ => ⟨.cmd10, 0x100, 0x300⟩
  | .facadeWrite _ _ => ⟨.cmd10, 0x000, 0x100⟩
  | .writeByteBlocking _ => ⟨.cmd10, 0x200, 0x300⟩
  | .writeBytes _ => ⟨.cmd10, 0x200, 0x300⟩
  | .writeChar _ => ⟨.cmd10, 0x200, 0x300⟩

/-- A code lies under a row: its format, its fixed bits, within its width. -/
def Row.covers (r : Row) (c : Code) : Bool :=
  c.fmt == r.fmt && (c.bits &&& r.mask == r.value) && decide (c.bits < 2 ^ r.fmt.width)

/-! ## A word given by its number of bits alone -/

/-- A word of `nbits` bits as the host hands it over (log entry 3): CMD10 words in 10 bits or in two whole bytes, one
byte (an event byte, or one of the two instruction bytes the table names, which no event byte is), four event bytes. -/
def codeOfBits (nbits w : Nat) : Option Code :=
  match nbits with
  | 10 => some { fmt := .cmd10, bits := w }
  | 16 => some { fmt := .cmd10, bits := w }
  | 8 =>
    if w = 0x01 then some { fmt := .lcdi8, bits := w }
    else if w = 0x02 then some { fmt := .lcdi8, bits := w }
    else some { fmt := .evt8, bits := w }
  | 32 => some { fmt := .evt8x4, bits := w }
  | _ => none

/-- The instruction the decoder reads from a word of the opcode table. A word that several rows share decodes to the
command row (R93); the rows of mask 0 (DECODE_STATUS, SPLIT, JOIN) are reached by naming their format. -/
def decodeTableWord (nbits w : Nat) : Option Instr :=
  match codeOfBits nbits w with
  | none => none
  | some c =>
    match c.decode with
    | .ok i => some i
    | .error _ => none

end Sys2Proof
end

