-- ==== Sys2Proof/Machine/State.lean ====
section
/-! DEFINITION. The state of the machine as plain data, the state right after reset, and the reasons a step can stop
(10_state.md; INVENTORY.md "State" lists every field with its rule and reset value). -/

namespace Sys2Proof.Machine

/-- What a control-line latch holds: low, high or unknown (00_scope.md R11, 10_state.md R21). -/
inductive Level where
  | L
  | H
  | U
  deriving DecidableEq, Repr

/-- The level a parameter of INIT_LINES names. -/
def Level.ofInit : Option Logic → Level
  | some .low => .L
  | some .high => .H
  | none => .U

/-- The latched command `op` of the sequencer (10_state.md R26). -/
inductive Op where
  | state
  | write (kind : Kind) (b : Byte)
  deriving DecidableEq, Repr

/-- The sequencer: idle, or running `op` with `upc` the index of its next step (R26, R27). -/
inductive Seq where
  | idle
  | run (op : Op) (upc : BitVec 5)
  deriving DecidableEq, Repr

/-- `Failed(line, e)`, one variant a line, `e` of that line's type (60_exceptions.md R176). -/
inductive Failure where
  | rs (e : ErrInfoRs)
  | rw (e : ErrInfoRw)
  | en (e : ErrInfoEn)
  | bus (e : ErrInfoBus)
  deriving DecidableEq, Repr

/-- The result of an ended operation (10_state.md R31, 60_exceptions.md R175). -/
inductive Result where
  | success
  | successStatus (v : Byte)
  | retryLater
  | failed (f : Failure)
  deriving DecidableEq, Repr

/-- The decoded status byte (10_state.md R34). -/
structure Status where
  busy : Bool
  addr : BitVec 7
  deriving DecidableEq, Repr

/-- What a primitive or a pure function hands back to its caller (40_line_primitives.md R109, R111 to R113). -/
inductive Yield where
  | nibble (v : Nibble)
  | pair (l h : Nibble)
  | byte (v : Byte)
  | status (st : Status)
  deriving DecidableEq, Repr

/-- The blocking stream while it runs: the caller's sequence and the index `k` of the byte it is at (10_state.md R36,
43_timed_facade.md R151). -/
structure ByteStream where
  bytes : List Byte
  k : Nat
  deriving DecidableEq, Repr

/-- One move of the host (60_exceptions.md R190; log entry 3). -/
inductive Request where
  /-- A word of a format presented to the block; the command port takes CMD10 words (10_state.md R35, R38). A word of a line
  primitive, of the marker or of the pulse is none the engine takes from a host (R26). -/
  | code (c : Code)
  /-- An operation invoked by its name (43_timed_facade.md, its head: "the host invokes them by name"). -/
  | call (i : Instr)
  /-- NEW (R145); the host may make this move again while an engine exists (log entry 19). -/
  | new
  /-- FACADE_NEW (R146). -/
  | facadeNew
  /-- RELEASE (R147). -/
  | release
  /-- The host lets a step pass (R190: "wait any time"; R215). -/
  | wait
  deriving DecidableEq, Repr

/-- The state of the machine. -/
structure State where
  /-- `rs_q` (R21). -/
  rsQ : Level
  /-- `rw_q` (R21). -/
  rwQ : Level
  /-- `en_q` (R21). -/
  enQ : Level
  /-- `db_q`, `none` for `U` (R22). -/
  dbQ : Option Nibble
  /-- `seq` (R26, R27). -/
  seq : Seq
  /-- `cmd_q` (R29). -/
  cmdQ : BitVec 10
  /-- `lo_q` (R28). -/
  loQ : Nibble
  /-- `hi_q` (R28). -/
  hiQ : Nibble
  /-- `sr` (R30). -/
  sr : Byte
  /-- `res`, `none` before the first result (R31, R44). -/
  res : Option Result
  /-- `tmr`, the pulse timer, in clock ticks (R32). -/
  tmr : Nat
  /-- `trace`, oldest event first (R41). -/
  trace : List Event
  /-- The stream adapter, `none` outside a stream operation (R36, R44). -/
  stream : Option ByteStream
  /-- How many bytes the last ended stream operation had accepted (R151; log entry 5). -/
  accepted : Nat
  /-- The value the last yielding instruction handed back (R109, R111 to R113; log entry 6). -/
  out : Option Yield
  /-- The host's next moves, the next one first (R45; log entry 3). -/
  host : List Request
  /-- The environment's next answers, the next one first (R43; log entry 2). -/
  env : List Answer
  /-- What the environment answers for ever once `env` has run out; `none` where its answers are free then (R43; log
  entry 2). -/
  envRest : Option Answer
  /-- How many answers have been drawn (log entry 2). -/
  draws : Nat
  deriving DecidableEq, Repr

/-- The state right after construction with the lines at `init` (R44, 43_timed_facade.md R145, 70_reset_and_hazards.md
R205, R206). The latches R44 leaves unspecified hold the values log entry 1 names. -/
def State.new (init : InitLines) : State where
  rsQ := Level.ofInit init.rs
  rwQ := Level.ofInit init.rw
  enQ := Level.ofInit init.en
  dbQ := init.db
  seq := .idle
  cmdQ := 0
  loQ := 0
  hiQ := 0
  sr := 0
  res := none
  tmr := 0
  trace := []
  stream := none
  accepted := 0
  out := none
  host := []
  env := []
  envRest := none
  draws := 0

/-- The machine right after reset (R44): reset is construction with the default INIT_LINES (R205). -/
def State.reset : State := State.new Config.initLines

/-- Why the machine stops with a fault. -/
inductive Fault where
  /-- Raised by a step in a state whose `upc` is past the step table of its operation. No run of the machine reaches such a
  state (R27: the largest value, 25, ends the operation). Safe (log entry 11). -/
  | offTable
  deriving DecidableEq, Repr

/-- Why an instruction is refused. -/
inductive Refusal where
  /-- No meaning in this model yet. Raised by an arm of exec that stands in for one; there is none. Safe. -/
  | notModelled (mnemonic : String)
  /-- `ReservedDataRead`: raised by RESERVED_DATA_READ; the spec refuses it by this name (30_encoding.md R80,
  42_write.md R139). Safe. -/
  | reservedDataRead
  /-- Raised by WRITE_CHAR for a character wider than one byte, which the spec gives no meaning (43_timed_facade.md R152,
  93_implementation_defined.md U17). Safe. -/
  | wideCharacter (c : Nat)
  /-- Raised by the host port for a word that is no instruction of its format (R88, U20). Safe. -/
  | undecoded (why : Undecoded)
  /-- Raised by the host port for a line primitive, the marker FAIL or a pulse that the host asks of the idle engine by itself:
  "In `Idle` the engine performs no primitive action" (10_state.md R26), no interaction of 60_exceptions.md R190 is one, and what
  the engine has no meaning for is refused by name (R190). Their rows run as rows of a running operation's table. Safe (log
  entry 3). -/
  | internalAction (i : Instr)
  deriving DecidableEq, Repr

end Sys2Proof.Machine
end

