-- ==== Sys2Proof/Machine/Operands.lean ====
section
/-! DEFINITION. Operand assembly: byte to nibbles and back, nibble to bus levels and back, and the register the pair of
line levels selects (30_encoding.md R82 to R84, 20_memory.md R51, R56 to R58, R67). -/

namespace Sys2Proof.Machine

/-- `lo4(b)` = b[3:0], the nibble transferred first (00_scope.md R12, R82). -/
def lo4 (b : Byte) : Nibble := b.extractLsb' 0 4

/-- `hi4(b)` = b[7:4], the nibble transferred second (R12, R82). -/
def hi4 (b : Byte) : Nibble := b.extractLsb' 4 4

/-- `join(l, h)` = the byte of high nibble `h` and low nibble `l`, `l` read first (R12, R83). -/
def join (l h : Nibble) : Byte := h ++ l

/-- The bit a level carries: H is 1 (R84). -/
def levelBit : Logic → Bool
  | .low => false
  | .high => true

/-- The level that carries a bit (R84). -/
def bitLevel : Bool → Logic
  | false => .low
  | true => .high

/-- `BUS4`: element `i` carries bit `i` (R57, R84). -/
def levelsOf (v : Nibble) : Bus4 where
  e0 := bitLevel (v.getLsbD 0)
  e1 := bitLevel (v.getLsbD 1)
  e2 := bitLevel (v.getLsbD 2)
  e3 := bitLevel (v.getLsbD 3)

/-- The nibble of four sampled levels (R57, R84, R109). -/
def nibbleOf (s : Bus4) : Nibble :=
  BitVec.ofBool (levelBit s.e3) ++ BitVec.ofBool (levelBit s.e2) ++ BitVec.ofBool (levelBit s.e1)
    ++ BitVec.ofBool (levelBit s.e0)

/-- The controller's registers as the engine sees them (20_memory.md R51). -/
inductive Reg where
  | status
  | ir
  | dr
  deriving DecidableEq, Repr

/-- The address map: the register that levels of RS and RW select; nothing for (H, H) and for unknown levels (R51, R52). -/
def selected : Level → Level → Option Reg
  | .L, .H => some .status
  | .L, .L => some .ir
  | .H, .L => some .dr
  | _, _ => none

/-- The RS level the control mux gives an operand kind in the data phase (R67). -/
def rsLevelOf : Kind → Level
  | .instr => .L
  | .data => .H

end Sys2Proof.Machine
end

