-- ==== Sys2Proof/Machine/Flags.lean ====
section
/-! DEFINITION. The one condition flag, bit 7 of the status byte; the status byte's decode and encode; the result word
(10_state.md R33, R34, 30_encoding.md R81, R86). No flag is stored in the engine. -/

namespace Sys2Proof.Machine

/-- The busy flag of a status byte (R33, R81). -/
def busyFlag (v : Byte) : Bool := v.getLsbD Config.bfBit

/-- `DECODE_STATUS`: busy is bit 7, addr is bits 6:0 (R81, 40_line_primitives.md R113). -/
def decodeStatus (v : Byte) : Status where
  busy := busyFlag v
  addr := v.extractLsb' 0 7

/-- The inverse of the decode (R81). -/
def encodeStatus (s : Status) : Byte := BitVec.ofBool s.busy ++ s.addr

/-- The kind of a result: 0 Success, 1 RetryLater, 2 Failed (R86). -/
def Result.kindCode : Result → BitVec 2
  | .success => 0
  | .successStatus _ => 0
  | .retryLater => 1
  | .failed _ => 2

/-- The line a failure names (60_exceptions.md R176). -/
def failureLine : Failure → Line
  | .rs _ => .rs
  | .rw _ => .rw
  | .en _ => .en
  | .bus _ => .bus

/-- The failure of a line, with that line's own value of an error answer, unmodified (R176, 10_state.md R43). -/
def failureOn (l : Line) (e : ErrInfos) : Failure :=
  match l with
  | .rs => .rs e.rs
  | .rw => .rw e.rw
  | .en => .en e.en
  | .bus => .bus e.bus

/-- The line field of a result word; 0 but for a failure (R86). -/
def Result.lineCode : Result → BitVec 2
  | .failed f => (failureLine f).code
  | .success => 0
  | .successStatus _ => 0
  | .retryLater => 0

/-- The status field of a result word; 0x00 but for a status poll (R86). -/
def Result.statusByte : Result → Byte
  | .successStatus v => v
  | .success => 0
  | .retryLater => 0
  | .failed _ => 0

/-- `RES12`: kind, line, status (R86). -/
def Result.res12 (r : Result) : BitVec 12 := r.kindCode ++ r.lineCode ++ r.statusByte

/-- The error value beside the word, as the variant that carries it (R86). -/
def Result.info? : Result → Option Failure
  | .failed f => some f
  | .success => none
  | .successStatus _ => none
  | .retryLater => none

end Sys2Proof.Machine
end

