-- ==== Sys2Proof/Machine/Ops.lean ====
section
/-! DEFINITION. The named operations every meaning is written with: drawing an answer of the environment, recording an
event, TAKING A FAILURE, one fallible action, ending an operation, accepting a command, the stream adapter. -/

namespace Sys2Proof.Machine

/-! ## The environment and the history -/

/-- The `k`-th next answer of the environment (10_state.md R43): the script's, then the lasting one if State has it, else the free
values of Config (log entry 2). -/
def answerOf (env : List Answer) (rest : Option Answer) (draws k : Nat) : Answer :=
  match env[k]?, rest with
  | some a, _ => a
  | none, some a => a
  | none, none => Config.envAnswer (draws + k)

/-- The environment's answer to the `k`-th fallible action from here. -/
def State.answerAt (s : State) (k : Nat) : Answer := answerOf s.env s.envRest s.draws k

/-- The answer to the next fallible action. -/
def State.answer (s : State) : Answer := s.answerAt 0

/-- One answer has been drawn. -/
def State.drawn (s : State) : State := { s with env := s.env.tail, draws := s.draws + 1 }

/-- `trace += e` (00_scope.md R12, 10_state.md R41). -/
def State.record (e : Event) (s : State) : State := { s with trace := s.trace ++ [e] }

/-! ## Results and failures -/

/-- `return X`: the result is written and the sequencer goes idle (10_state.md R42). -/
def endOp (r : Result) (s : State) : State := { s with res := some r, seq := .idle }

/-- `latch <- U` for the latch of a line (40_line_primitives.md R100, 60_exceptions.md R178 item 1). -/
def latchUnknown (l : Line) (s : State) : State :=
  match l with
  | .rs => { s with rsQ := .U }
  | .rw => { s with rwQ := .U }
  | .en => { s with enQ := .U }
  | .bus => { s with dbQ := none }

/-- TAKING A FAILURE, `raise Fail(line, e)` after the action's own byte and latch (R178 items 2 to 5): the marker, the
result, the sequencer idle; nothing is saved besides and nothing restored. There is no return from it (R183). -/
def raiseFail (l : Line) (e : ErrInfos) (s : State) : State := endOp (.failed (failureOn l e)) (s.record (.fail l))

/-- How one or more actions ended: all done, or cut short by a failure. -/
inductive Acted where
  | done (s : State)
  | failed (s : State)
  deriving DecidableEq, Repr

/-- The state an action leaves. -/
def Acted.state : Acted → State
  | .done s => s
  | .failed s => s

/-- Sequencing: after a failure no further action is performed, "not even a delay" (R178 item 5). -/
def Acted.andThen (x : Acted) (f : State → Acted) : Acted :=
  match x with
  | .done s => f s
  | .failed s => .failed s

/-- A bookkeeping step between actions, which cannot fail. -/
def Acted.map (x : Acted) (f : State → State) : Acted :=
  match x with
  | .done s => .done (f s)
  | .failed s => .failed s

/-! ## The primitive actions -/

/-- `act(A, line, latch, value)` (40_line_primitives.md R100): the event is recorded whether or not the action fails, the
environment is asked once, ok writes the latch, err makes it unknown and raises. -/
def act (e : Event) (l : Line) (write : State → State) (s : State) : Acted :=
  let s1 := (s.record e).drawn
  match s.answer with
  | .ok _ => .done (write s1)
  | .err x => .failed (raiseFail l x (latchUnknown l s1))

/-- R101. -/
def actRsLow (s : State) : Acted := act .rsLow .rs (fun t => { t with rsQ := .L }) s

/-- R102. -/
def actRsHigh (s : State) : Acted := act .rsHigh .rs (fun t => { t with rsQ := .H }) s

/-- R103. -/
def actRwLow (s : State) : Acted := act .rwLow .rw (fun t => { t with rwQ := .L }) s

/-- R104. -/
def actRwHigh (s : State) : Acted := act .rwHigh .rw (fun t => { t with rwQ := .H }) s

/-- R105. -/
def actEHigh (s : State) : Acted := act .eHigh .en (fun t => { t with enQ := .H }) s

/-- R106. -/
def actELow (s : State) : Acted := act .eLow .en (fun t => { t with enQ := .L }) s

/-- R108: all four levels in one call. -/
def actBusWrite (v : Nibble) (s : State) : Acted := act (.busWrite v) .bus (fun t => { t with dbQ := some v }) s

/-- R109: the event records the nibble returned, 0 when the read failed; no latch is written either way, the nibble is
yielded to the caller (log entries 6, 9). -/
def actBusRead (s : State) : Acted :=
  match s.answer with
  | .ok levels => .done { (s.record (.busRead (nibbleOf levels))).drawn with out := some (.nibble (nibbleOf levels)) }
  | .err x => .failed (raiseFail .bus x (s.record (.busRead 0)).drawn)

/-- R107: at least `n` microseconds pass; no line changes and the environment is not asked. The pulse timer has run down
to 0 when the step ends (10_state.md R32). An argument other than 1 is no delay of a step table (R88, log entry 18). -/
def delayUs (n : Nibble) (s : State) : State := { s.record (.delayUs n) with tmr := 0 }

/-- R110: the four actions of an enable pulse, cut short by a failure of either drive: the rule's pseudocode, to which the four
rows of a pulse in a step table are held (`Obligations.EnablePulse`). -/
def pulse (s : State) : Acted :=
  (((actEHigh s).map (delayUs Config.tEhMin)).andThen actELow).map (delayUs Config.tElMin)

/-! ## Starting an operation -/

/-- The host may start an operation: the engine is idle and the host is not blocked in a stream operation (10_state.md R38,
60_exceptions.md R190). -/
def State.ready (s : State) : Bool := s.seq == .idle && s.stream == none

/-- `cmd_q <- cmd`, `seq <- Run(op, 0)` (R27, R29, R38). -/
def startOp (op : Op) (cmd : BitVec 10) (s : State) : State := { s with cmdQ := cmd, seq := .run op 0 }

/-- A presented command: accepted when the machine is ready, else not accepted and not stored (R38). -/
def accept (op : Op) (cmd : BitVec 10) (s : State) : State := if s.ready then startOp op cmd s else s

/-! ## The blocking stream -/

/-- The end of a stream operation: its result, and the count of bytes accepted (43_timed_facade.md R151). -/
def endStream (r : Result) (k : Nat) (s : State) : State :=
  { s with stream := none, accepted := k, res := some r }

/-- The next inner WRITE_DATA of a stream, or its successful end (R150, R151). -/
def issue (st : ByteStream) (s : State) : State :=
  match st.bytes[st.k]? with
  | some b => startOp (.write .data b) (writeWord .data b) { s with stream := some st }
  | none => endStream .success st.k s

/-- The start of a stream operation, when the machine is ready (R150, R151, R190). -/
def openStream (bs : List Byte) (s : State) : State := if s.ready then issue { bytes := bs, k := 0 } s else s

/-- What the adapter does when an inner write has ended: go on to the next byte, try the same byte again at once, or stop
with the failure (R150, R151). -/
def streamTurn (st : ByteStream) (s : State) : State :=
  match s.res with
  | some .success => issue { st with k := st.k + 1 } s
  | some (.successStatus _) => issue { st with k := st.k + 1 } s
  | some (.failed f) => endStream (.failed f) st.k s
  | some .retryLater => issue st s
  | none => issue st s

end Sys2Proof.Machine
end

