-- ==== Sys2Proof/Machine/Bytes.lean ====
section
/-! DEFINITION. The meanings of the pure functions: no line, no event, no failure; the result is yielded to the caller
(40_line_primitives.md R111 to R113; log entry 6). -/

namespace Sys2Proof.Machine

/-- SPLIT (R111). -/
def execSplit (b : Byte) (s : State) : Host.Outcome State Fault Refusal :=
  .next { s with out := some (.pair (lo4 b) (hi4 b)) }

/-- JOIN (R112). -/
def execJoin (l h : Nibble) (s : State) : Host.Outcome State Fault Refusal :=
  .next { s with out := some (.byte (join l h)) }

/-- DECODE_STATUS (R113). -/
def execDecodeStatus (v : Byte) (s : State) : Host.Outcome State Fault Refusal :=
  .next { s with out := some (.status (decodeStatus v)) }

end Sys2Proof.Machine
end

