-- ==== Sys2Proof/Machine/Commands.lean ====
section
/-! DEFINITION. The meanings of the command words and of the two named instruction bytes: the host presents them, the
engine accepts them when it is idle, and the sequencer then takes their steps (10_state.md R38, 41_status_poll.md R120,
42_write.md R134, R135, R139, 44_instruction_table.md R166, R167). -/

namespace Sys2Proof.Machine

/-- STATE (R120): the command latch holds the word presented, `db` and all (R29). -/
def execState (db : Byte) (s : State) : Host.Outcome State Fault Refusal :=
  .next (accept .state (stateWord db) s)

/-- WRITE_INSTR (R134). The byte is not checked against INSTR_SET (R169). -/
def execWriteInstr (i : Byte) (s : State) : Host.Outcome State Fault Refusal :=
  .next (accept (.write .instr i) (writeWord .instr i) s)

/-- WRITE_DATA (R135). -/
def execWriteData (b : Byte) (s : State) : Host.Outcome State Fault Refusal :=
  .next (accept (.write .data b) (writeWord .data b) s)

/-- RESERVED_DATA_READ: `refuse ReservedDataRead` (R80, R139). -/
def execReservedDataRead (_db : Byte) (_s : State) : Host.Outcome State Fault Refusal :=
  .refused .reservedDataRead

/-- CLEAR_DISPLAY: WRITE_INSTR 0x01 (R166). -/
def execClearDisplay (s : State) : Host.Outcome State Fault Refusal :=
  .next (accept (.write .instr 0x01#8) (writeWord .instr 0x01#8) s)

/-- RETURN_HOME: WRITE_INSTR 0x02 (R167). -/
def execReturnHome (s : State) : Host.Outcome State Fault Refusal :=
  .next (accept (.write .instr 0x02#8) (writeWord .instr 0x02#8) s)

end Sys2Proof.Machine
end

