-- ==== Sys2Proof/Machine/Facade.lean ====
section
/-! DEFINITION. The meanings of the timed facade's operations and the three ownership operations that have no word
(43_timed_facade.md R145 to R152). -/

namespace Sys2Proof.Machine

/-- FACADE_STATE: exactly STATE (R148). -/
def execFacadeState (db : Byte) (s : State) : Host.Outcome State Fault Refusal :=
  .next (accept .state (stateWord db) s)

/-- FACADE_WRITE: exactly WRITE (R149). -/
def execFacadeWrite (kind : Kind) (b : Byte) (s : State) : Host.Outcome State Fault Refusal :=
  .next (accept (.write kind b) (writeWord kind b) s)

/-- WRITE_BYTE_BLOCKING (R150). -/
def execWriteByteBlocking (b : Byte) (s : State) : Host.Outcome State Fault Refusal := .next (openStream [b] s)

/-- WRITE_BYTES (R151). -/
def execWriteBytes (bs : List Byte) (s : State) : Host.Outcome State Fault Refusal := .next (openStream bs s)

/-- WRITE_CHAR: WRITE_BYTE_BLOCKING for a character that is one byte; a wider one is refused by name (R152, U17). -/
def execWriteChar (c : Nat) (s : State) : Host.Outcome State Fault Refusal :=
  if c < 256 then .next (openStream [BitVec.ofNat 8 c] s) else .refused (.wideCharacter c)

/-- NEW: the state of R44, no line driven; the host's and the environment's parts of State are not the engine's and go
on (R145, R205, R206). DESIGN CHOICE, log entry 19: a NEW while an engine exists builds it anew, history, result and latches
lost; the spec is silent on a repeat. -/
def constructEngine (s : State) : State :=
  { State.new Config.initLines with host := s.host, env := s.env, envRest := s.envRest, draws := s.draws }

/-- FACADE_NEW: the identity, the timer being built in (R146). -/
def constructFacade (s : State) : State := s

/-- RELEASE: no action, no latch changes (R147). -/
def releaseFacade (s : State) : State := s

end Sys2Proof.Machine
end

