-- ==== Sys2Proof/Machine/Lines.lean ====
section
/-! DEFINITION. The meanings of the line primitives, the failure and the enable pulse (40_line_primitives.md R100 to R110,
60_exceptions.md R178). Only a running operation performs them, as rows of its step table (10_state.md R26). -/

namespace Sys2Proof.Machine

/-- RS_LOW (R101). -/
def execRsLow (s : State) : Host.Outcome State Fault Refusal := .next (actRsLow s).state

/-- RS_HIGH (R102). -/
def execRsHigh (s : State) : Host.Outcome State Fault Refusal := .next (actRsHigh s).state

/-- RW_LOW (R103). -/
def execRwLow (s : State) : Host.Outcome State Fault Refusal := .next (actRwLow s).state

/-- RW_HIGH (R104). -/
def execRwHigh (s : State) : Host.Outcome State Fault Refusal := .next (actRwHigh s).state

/-- E_LOW (R106). -/
def execELow (s : State) : Host.Outcome State Fault Refusal := .next (actELow s).state

/-- E_HIGH (R105). -/
def execEHigh (s : State) : Host.Outcome State Fault Refusal := .next (actEHigh s).state

/-- DELAY_US (R107), for every argument. No step performs one with an argument other than 1 (R88), so what this says of such an
argument is no step's (log entry 18). -/
def execDelayUs (n : Nibble) (s : State) : Host.Outcome State Fault Refusal := .next (delayUs n s)

/-- BUS_WRITE (R108). -/
def execBusWrite (v : Nibble) (s : State) : Host.Outcome State Fault Refusal := .next (actBusWrite v s).state

/-- BUS_READ (R109): the row's nibble is what a recorded event holds, so it is not looked at (log entry 7). -/
def execBusRead (_v : Nibble) (s : State) : Host.Outcome State Fault Refusal := .next (actBusRead s).state

/-- FAIL: the failure on `line`, with an error value the environment is free in (R178; log entry 8). A step takes it with the
failing action before it (`act`). -/
def execFail (line : Line) (s : State) : Host.Outcome State Fault Refusal :=
  .next (raiseFail line (Config.freeErrInfo s.draws) (latchUnknown line { s with draws := s.draws + 1 }))

/-- PULSE_ENABLE (R110): the four actions of the pulse. A step is one action (00_scope.md R13), so no step runs this meaning
whole: the pulses of the operations are four rows each of their tables, with the same effect (`Obligations.EnablePulse`). -/
def execPulseEnable (s : State) : Host.Outcome State Fault Refusal := .next (pulse s).state

end Sys2Proof.Machine
end

