-- ==== Sys2Proof/Machine/Dispatch.lean ====
section
/-! DEFINITION. One arm per constructor of Instr, each one direct call of its meaning. -/

namespace Sys2Proof.Machine

def exec (i : Instr) (s : State) : Host.Outcome State Fault Refusal :=
  match i with
  | .state db => Sys2Proof.Machine.execState db s
  | .writeInstr b => Sys2Proof.Machine.execWriteInstr b s
  | .writeData b => Sys2Proof.Machine.execWriteData b s
  | .reservedDataRead db => Sys2Proof.Machine.execReservedDataRead db s
  | .clearDisplay => Sys2Proof.Machine.execClearDisplay s
  | .returnHome => Sys2Proof.Machine.execReturnHome s
  | .rsLow => Sys2Proof.Machine.execRsLow s
  | .rsHigh => Sys2Proof.Machine.execRsHigh s
  | .rwLow => Sys2Proof.Machine.execRwLow s
  | .rwHigh => Sys2Proof.Machine.execRwHigh s
  | .eLow => Sys2Proof.Machine.execELow s
  | .eHigh => Sys2Proof.Machine.execEHigh s
  | .delayUs n => Sys2Proof.Machine.execDelayUs n s
  | .busWrite v => Sys2Proof.Machine.execBusWrite v s
  | .busRead v => Sys2Proof.Machine.execBusRead v s
  | .fail line => Sys2Proof.Machine.execFail line s
  | .pulseEnable => Sys2Proof.Machine.execPulseEnable s
  | .decodeStatus v => Sys2Proof.Machine.execDecodeStatus v s
  | .split b => Sys2Proof.Machine.execSplit b s
  | .join l h => Sys2Proof.Machine.execJoin l h s
  | .facadeState db => Sys2Proof.Machine.execFacadeState db s
  | .facadeWrite kind b => Sys2Proof.Machine.execFacadeWrite kind b s
  | .writeByteBlocking b => Sys2Proof.Machine.execWriteByteBlocking b s
  | .writeBytes bs => Sys2Proof.Machine.execWriteBytes bs s
  | .writeChar c => Sys2Proof.Machine.execWriteChar c s

end Sys2Proof.Machine
end

