-- ==== Sys2Proof/Machine/HostPort.lean ====
section
/-! DEFINITION. The host's side of a step: taking the host's next move, decoding a presented word, and the stream
adapter's turn (10_state.md R35, R38, 60_exceptions.md R190; log entry 3). -/

namespace Sys2Proof.Machine

/-- The rows of the classes primitive, marker and composite (30_encoding.md R93): what only a running operation performs
(10_state.md R26, 40_line_primitives.md: "Used by"). -/
def internal (i : Instr) : Bool :=
  match i with
  | .rsLow => true
  | .rsHigh => true
  | .rwLow => true
  | .rwHigh => true
  | .eLow => true
  | .eHigh => true
  | .delayUs _ => true
  | .busWrite _ => true
  | .busRead _ => true
  | .fail _ => true
  | .pulseEnable => true
  | .state _ => false
  | .writeInstr _ => false
  | .writeData _ => false
  | .reservedDataRead _ => false
  | .clearDisplay => false
  | .returnHome => false
  | .decodeStatus _ => false
  | .split _ => false
  | .join _ _ => false
  | .facadeState _ => false
  | .facadeWrite _ _ => false
  | .writeByteBlocking _ => false
  | .writeBytes _ => false
  | .writeChar _ => false

/-- The host asks the idle engine for `i`: run, unless it is an action, which the engine does not perform in Idle (R26) and the
host has no way to ask for (R190), and which is therefore refused by name. -/
def present (i : Instr) (s : State) : Host.Outcome State Fault Refusal :=
  if internal i then .refused (.internalAction i) else exec i s

/-- One move of the host. The moves are taken in any order: that of R209 is not enforced, and NEW may come again (DESIGN CHOICE,
log entry 19). -/
def serve (r : Request) (s : State) : Host.Outcome State Fault Refusal :=
  match r with
  | .code c =>
    match c.decode with
    | .ok i => present i s
    | .error why => .refused (.undecoded why)
  | .call i => present i s
  | .new => .next (constructEngine s)
  | .facadeNew => .next (constructFacade s)
  | .release => .next (releaseFacade s)
  | .wait => .next s

/-- A step in Idle: a running stream takes its turn; else the host's next move is served; with no move nothing happens. None of
these performs a primitive action or moves a line (R26: "In `Idle` the engine performs no primitive action"). -/
def idleStep (s : State) : Host.Outcome State Fault Refusal :=
  match s.stream with
  | some st => .next (streamTurn st s)
  | none =>
    match s.host with
    | [] => .next s
    | r :: rest => serve r { s with host := rest }

/-- The move that presents a word given by its number of bits (log entry 3). -/
def presented (nbits w : Nat) : Request :=
  match codeOfBits nbits w with
  | some c => .code c
  | none => .wait

/-- The state in which the next step takes the move `r`: the engine idle, no stream, `r` the host's next move. -/
def withMove (r : Request) (s : State) : State := { s with seq := .idle, stream := none, host := r :: s.host }

/-! ## Placing a word -/

/-- The command word of an operation (R29). -/
def commandWord (op : Op) : BitVec 10 :=
  match op with
  | .state => stateWord 0
  | .write kind b => writeWord kind b

/-- The state in which the next step is row `upc` of `op`, with the command latch holding the command that runs and, for a write,
the nibble latches its operand (R27, R28, R29). -/
def atRow (op : Op) (upc : BitVec 5) (s : State) : State :=
  match op with
  | .state => { s with seq := .run op upc, cmdQ := commandWord op, stream := none }
  | .write _ b => { s with seq := .run op upc, cmdQ := commandWord op, stream := none, loQ := lo4 b, hiQ := hi4 b }

/-- A row of a step table that performs the action `i`; `none` where no row is that one action. -/
def actionRow (i : Instr) : Option (Op × BitVec 5) :=
  match i with
  | .rsLow => some (.state, 0)
  | .rwHigh => some (.state, 1)
  | .eHigh => some (.state, 2)
  | .delayUs n => if n = Config.tEhMin then some (.state, 3) else none
  | .eLow => some (.state, 4)
  | .busRead _ => some (.state, 6)
  | .rsHigh => some (.write .data 0, 13)
  | .rwLow => some (.write .data 0, 14)
  | .busWrite v => some (.write .data (join v 0), 15)
  | .fail _ => none
  | .pulseEnable => none
  | .state _ => none
  | .writeInstr _ => none
  | .writeData _ => none
  | .reservedDataRead _ => none
  | .clearDisplay => none
  | .returnHome => none
  | .decodeStatus _ => none
  | .split _ => none
  | .join _ _ => none
  | .facadeState _ => none
  | .facadeWrite _ _ => none
  | .writeByteBlocking _ => none
  | .writeBytes _ => none
  | .writeChar _ => none

/-- The first row of a poll that can fail on a line. -/
def failingRow (l : Line) : BitVec 5 :=
  match l with
  | .rs => 0
  | .rw => 1
  | .en => 2
  | .bus => 6

/-- The state in which the next step performs the internal row `i`: the sequencer at a row that is that action; at the first of
the four rows of a pulse; at an action that fails on the marker's line, the environment's next answer an error. Anything else is
the host's next move (log entry 3). -/
def placeInstr (i : Instr) (r : Request) (s : State) : State :=
  match actionRow i, i with
  | some (op, upc), _ => atRow op upc s
  | none, .pulseEnable => atRow .state 2 s
  | none, .fail l => { atRow .state (failingRow l) s with env := .err (Config.freeErrInfo s.draws) :: s.env }
  | none, _ => withMove r s

/-- `s` with a word of `nbits` bits placed where the next step takes its instruction from. -/
def placeWord (nbits w : Nat) (s : State) : State :=
  match decodeTableWord nbits w with
  | some i => placeInstr i (presented nbits w) s
  | none => withMove (presented nbits w) s

end Sys2Proof.Machine
end

