-- ==== Sys2Proof/Machine/Sequencer.lean ====
section
/-! DEFINITION. The two step tables and one step of a running operation (41_status_poll.md R121, 42_write.md R131,
10_state.md R26 to R30). -/

namespace Sys2Proof.Machine

/-- One row of a step table. -/
inductive Micro where
  /-- A primitive action with nothing to store. -/
  | action (i : Instr)
  /-- `BUS_READ → lo_q`. -/
  | readLo
  /-- `BUS_READ → hi_q`. -/
  | readHi
  /-- `BUS_WRITE lo_q`. -/
  | writeLo
  /-- `BUS_WRITE hi_q`. -/
  | writeHi
  /-- Step 12: the status byte is assembled; the poll returns it, a write tests it. -/
  | assemble
  /-- Step 25: `return Success`. -/
  | finish
  deriving DecidableEq, Repr

/-- Steps 0 to 12 (R121; the same for a write, R131). -/
def pollTable : Nat → Option Micro
  | 0 => some (.action .rsLow)
  | 1 => some (.action .rwHigh)
  | 2 => some (.action .eHigh)
  | 3 => some (.action (.delayUs Config.tEhMin))
  | 4 => some (.action .eLow)
  | 5 => some (.action (.delayUs Config.tElMin))
  | 6 => some .readLo
  | 7 => some (.action .eHigh)
  | 8 => some (.action (.delayUs Config.tEhMin))
  | 9 => some (.action .eLow)
  | 10 => some (.action (.delayUs Config.tElMin))
  | 11 => some .readHi
  | 12 => some .assemble
  | _ => none

/-- Step 13: the control mux's RS action for an operand kind (20_memory.md R67, R131). -/
def rsAction : Kind → Instr
  | .instr => .rsLow
  | .data => .rsHigh

/-- Steps 13 to 25 of a write (R131). -/
def dataTable (kind : Kind) : Nat → Option Micro
  | 13 => some (.action (rsAction kind))
  | 14 => some (.action .rwLow)
  | 15 => some .writeLo
  | 16 => some (.action .eHigh)
  | 17 => some (.action (.delayUs Config.tEhMin))
  | 18 => some (.action .eLow)
  | 19 => some (.action (.delayUs Config.tElMin))
  | 20 => some .writeHi
  | 21 => some (.action .eHigh)
  | 22 => some (.action (.delayUs Config.tEhMin))
  | 23 => some (.action .eLow)
  | 24 => some (.action (.delayUs Config.tElMin))
  | 25 => some .finish
  | _ => none

/-- The step an operation is at; `none` past its table. -/
def stepTable (op : Op) (upc : BitVec 5) : Option Micro :=
  if upc.toNat ≤ 12 then pollTable upc.toNat
  else
    match op with
    | .state => none
    | .write kind _ => dataTable kind upc.toNat

/-- The primitive a row performs, its operand read from the nibble latches; `none` for an internal completion. -/
def microInstr (m : Micro) (s : State) : Option Instr :=
  match m with
  | .action i => some i
  | .readLo => some (.busRead 0)
  | .readHi => some (.busRead 0)
  | .writeLo => some (.busWrite s.loQ)
  | .writeHi => some (.busWrite s.hiQ)
  | .assemble => none
  | .finish => none

/-- The nibble the last action yielded. -/
def yieldedNibble (s : State) : Nibble :=
  match s.out with
  | some (.nibble v) => v
  | some (.pair _ _) => 0
  | some (.byte _) => 0
  | some (.status _) => 0
  | none => 0

/-- The caller stores what a BUS_READ yielded (R28, 40_line_primitives.md R109). -/
def storeYield (m : Micro) (s : State) : State :=
  match m with
  | .readLo => { s with loQ := yieldedNibble s }
  | .readHi => { s with hiQ := yieldedNibble s }
  | .action _ => s
  | .writeLo => s
  | .writeHi => s
  | .assemble => s
  | .finish => s

/-- What follows a primitive: an action that did not fail is followed by the next step; a failed one has ended the
operation (R27). -/
def afterAction (m : Micro) (s : State) : State :=
  match s.seq with
  | .run op upc => { storeYield m s with seq := .run op (upc + 1) }
  | .idle => s

/-- Step 12 (R121, R131, R132): `sr <- join(lo_q, hi_q)`; a poll returns it; a write whose busy flag is set ends; else
`(lo_q, hi_q) <- SPLIT b`. -/
def assembleStatus (op : Op) (upc : BitVec 5) (s : State) : State :=
  let v := join s.loQ s.hiQ
  match op with
  | .state => endOp (.successStatus v) { s with sr := v }
  | .write _ b =>
    if busyFlag v then endOp .retryLater { s with sr := v }
    else { s with sr := v, loQ := lo4 b, hiQ := hi4 b, seq := .run op (upc + 1) }

/-- An internal completion: step 12 or step 25. -/
def complete (m : Micro) (op : Op) (upc : BitVec 5) (s : State) : State :=
  match m with
  | .assemble => assembleStatus op upc s
  | .finish => endOp .success s
  | .action _ => s
  | .readLo => s
  | .readHi => s
  | .writeLo => s
  | .writeHi => s

/-- A primitive run by `exec` and what follows it. -/
def runAction (m : Micro) (i : Instr) (s : State) : Host.Outcome State Fault Refusal :=
  match exec i s with
  | .next t => .next (afterAction m t)
  | .fault r => .fault r
  | .refused r => .refused r

/-- One step of a running operation: the primitive of its row, run by `exec`, or an internal completion. -/
def seqStep (op : Op) (upc : BitVec 5) (s : State) : Host.Outcome State Fault Refusal :=
  match stepTable op upc with
  | none => .fault .offTable
  | some m =>
    match microInstr m s with
    | none => .next (complete m op upc s)
    | some i => runAction m i s

end Sys2Proof.Machine
end

