-- ==== Sys2Proof/Machine/Step.lean ====
section
/-! DEFINITION. One step of the machine: one primitive action or one internal completion of the running operation, or, in Idle,
one turn of the stream or one move of the host, neither of which performs an action (00_scope.md R13, 10_state.md R26, R38). -/

namespace Sys2Proof.Machine

/-- One step. -/
def step (s : State) : Host.Outcome State Fault Refusal :=
  match s.seq with
  | .run op upc => seqStep op upc s
  | .idle => idleStep s

/-- `s` with the instruction whose bits are `w` placed where the next step takes it from: a command is the host's next move in a
machine that is ready, a line primitive is the row the sequencer is at (log entry 3). -/
def State.withFetchWord (s : State) (nbits w : Nat) : State := placeWord nbits w s

end Sys2Proof.Machine
end

