-- ==== Sys2Proof/Machine/History.lean ====
section
/-! DEFINITION. What is read from an event history: the bytes it is written in, the counts and lower bounds the spec speaks
of, and the histories of the two phases (30_encoding.md R85, 41_status_poll.md R121, R126, 42_write.md R131, R140,
70_reset_and_hazards.md R226). -/

namespace Sys2Proof.Machine

/-- A history as EVT8 bytes (R85). -/
def evt8s (t : List Event) : List Byte := t.map Event.evt8

/-- A history read back from bytes; `none` if some byte is no row of R85's table (93_implementation_defined.md U20).
A `DELAY_US` byte is read whatever its argument (DESIGN CHOICE, log entry 18). -/
def eventsOf : List Byte → Option (List Event)
  | [] => some []
  | b :: bs =>
    match decodeEvent b, eventsOf bs with
    | some e, some es => some (e :: es)
    | some _, none => none
    | none, _ => none

/-- Is it a primitive action? The marker of a failure is none. -/
def isAction : Event → Bool
  | .fail _ => false
  | .rsLow => true
  | .rsHigh => true
  | .rwLow => true
  | .rwHigh => true
  | .eLow => true
  | .eHigh => true
  | .delayUs _ => true
  | .busWrite _ => true
  | .busRead _ => true

/-- The microseconds a delay asks for, a lower bound on what passes (40_line_primitives.md R107). -/
def delayOf : Event → Nat
  | .delayUs n => n.toNat
  | .rsLow => 0
  | .rsHigh => 0
  | .rwLow => 0
  | .rwHigh => 0
  | .eLow => 0
  | .eHigh => 0
  | .busWrite _ => 0
  | .busRead _ => 0
  | .fail _ => 0

/-- Is it a bus read? -/
def isBusRead : Event → Bool
  | .busRead _ => true
  | .rsLow => false
  | .rsHigh => false
  | .rwLow => false
  | .rwHigh => false
  | .eLow => false
  | .eHigh => false
  | .delayUs _ => false
  | .busWrite _ => false
  | .fail _ => false

/-- Is it a bus write? -/
def isBusWrite : Event → Bool
  | .busWrite _ => true
  | .rsLow => false
  | .rsHigh => false
  | .rwLow => false
  | .rwHigh => false
  | .eLow => false
  | .eHigh => false
  | .delayUs _ => false
  | .busRead _ => false
  | .fail _ => false

/-- How many primitive actions a history attempts. -/
def actions (t : List Event) : Nat := t.countP isAction

/-- How many bus reads a history attempts. -/
def busReads (t : List Event) : Nat := t.countP isBusRead

/-- How many bus writes a history attempts. -/
def busWrites (t : List Event) : Nat := t.countP isBusWrite

/-- How many delays a history has. -/
def delays (t : List Event) : Nat := t.countP fun e => decide (0 < delayOf e)

/-- The lower bound, in microseconds, on the time a history takes (R225, R226). -/
def minMicros (t : List Event) : Nat := (t.map delayOf).sum

/-- The four events of one enable pulse (R85, R110). -/
def pulseHistory : List Event := [.eHigh, .delayUs 1, .eLow, .delayUs 1]

/-- How many complete enable pulses, the four bytes in a row, a history has (R85). -/
def pulses : List Event → Nat
  | .eHigh :: .delayUs m :: .eLow :: .delayUs n :: rest =>
    if m = 1 ∧ n = 1 then pulses rest + 1 else pulses rest
  | _ :: rest => pulses rest
  | [] => 0

/-- The history of a poll phase that reads `l` and then `h` (R121). -/
def pollHistory (l h : Nibble) : List Event :=
  [.rsLow, .rwHigh] ++ pulseHistory ++ [.busRead l] ++ pulseHistory ++ [.busRead h]

/-- The RS event of a data phase (20_memory.md R67). -/
def rsEvent : Kind → Event
  | .instr => .rsLow
  | .data => .rsHigh

/-- The history of a data phase that transfers `b` (R131, R133). -/
def dataHistory (kind : Kind) (b : Byte) : List Event :=
  [rsEvent kind, .rwLow, .busWrite (lo4 b)] ++ pulseHistory ++ [.busWrite (hi4 b)] ++ pulseHistory

end Sys2Proof.Machine
end

