-- ==== Sys2Proof/Machine/Clocked.lean ====
section
/-! DEFINITION. The clocked rendering of the engine: its ports and one tick (10_state.md R32, R37, R38,
70_reset_and_hazards.md R207, R227; log entry 13). No rule of the action-level model depends on it (D17). -/

namespace Sys2Proof.Machine

/-- The input ports, but for the clock itself (R37). -/
structure PortsIn where
  rst : Bool
  cmdValid : Bool
  cmd : BitVec 10
  dbI : Nibble
  rsErr : Bool
  rwErr : Bool
  eErr : Bool
  busErr : Bool
  errInfo : BitVec Config.errW
  deriving DecidableEq, Repr

/-- The output ports (R37). -/
structure PortsOut where
  cmdReady : Bool
  resValid : Bool
  resKind : BitVec 2
  resStatus : Byte
  resLine : BitVec 2
  resInfo : BitVec Config.errW
  rs : Level
  rw : Level
  e : Level
  dbO : Option Nibble
  dbOe : Bool
  deriving DecidableEq, Repr

/-- The engine on a clock: its state, the `res_valid` strobe, and the `res_info` bits, "copied from `err_info`" (R37). -/
structure Clocked where
  core : State
  resValid : Bool
  resInfo : BitVec Config.errW
  deriving DecidableEq, Repr

/-- After `rst` (R44). -/
def Clocked.reset : Clocked := { core := State.reset, resValid := false, resInfo := 0 }

/-- The recommended driver policy, which no rule depends on: driven from a successful BUS_WRITE until the next RW_HIGH
action (20_memory.md R66, D18). `on` is the policy's answer before these events. -/
def recommendedDbOe (on : Bool) : List Event → Bool
  | [] => on
  | .busWrite _ :: .fail _ :: rest => recommendedDbOe on rest
  | .busWrite _ :: rest => recommendedDbOe true rest
  | .rwHigh :: rest => recommendedDbOe false rest
  | _ :: rest => recommendedDbOe on rest

/-- The result word on the ports; 0 before the first result (log entry 13). -/
def resultPorts (r : Option Result) : BitVec 2 × Byte × BitVec 2 :=
  match r with
  | some x => (x.kindCode, x.statusByte, x.lineCode)
  | none => (0, 0, 0)

/-- The output ports as functions of the state (R37). -/
def portsOut (c : Clocked) : PortsOut :=
  let r := resultPorts c.core.res
  { cmdReady := c.core.seq == .idle
    resValid := c.resValid
    resKind := r.1
    resStatus := r.2.1
    resLine := r.2.2
    resInfo := c.resInfo
    rs := c.core.rsQ
    rw := c.core.rwQ
    e := c.core.enQ
    dbO := c.core.dbQ
    dbOe := Config.dbOePolicy (evt8s c.core.trace) }

/-- The error port of a line (R37). -/
def lineErr (p : PortsIn) : Line → Bool
  | .rs => p.rsErr
  | .rw => p.rwErr
  | .en => p.eErr
  | .bus => p.busErr

/-- The error port sampled by an action, by the line it acts on (R37). -/
def errPort (p : PortsIn) : Instr → Bool
  | .rsLow => lineErr p .rs
  | .rsHigh => lineErr p .rs
  | .rwLow => lineErr p .rw
  | .rwHigh => lineErr p .rw
  | .eLow => lineErr p .en
  | .eHigh => lineErr p .en
  | .busWrite _ => lineErr p .bus
  | .busRead _ => lineErr p .bus
  | .pulseEnable => lineErr p .en
  | .delayUs _ => false
  | .fail _ => false
  | .decodeStatus _ => false
  | .split _ => false
  | .join _ _ => false
  | .state _ => false
  | .writeInstr _ => false
  | .writeData _ => false
  | .reservedDataRead _ => false
  | .clearDisplay => false
  | .returnHome => false
  | .facadeState _ => false
  | .facadeWrite _ _ => false
  | .writeByteBlocking _ => false
  | .writeBytes _ => false
  | .writeChar _ => false

/-- The environment's answer as the input ports give it: an error with `err_info`, else ok with the sampled levels (R37). -/
def portAnswer (p : PortsIn) (i : Instr) : Answer :=
  if errPort p i then .err (Config.errOfPort p.errInfo) else .ok (levelsOf p.dbI)

/-- One tick of a delay of `n` microseconds: the first loads the timer, each counts it down, and the step ends when it
reaches 0 (R32, R227). -/
def delayTick (m : Micro) (n : Nibble) (s : State) : State :=
  let left := if s.tmr = 0 then n.toNat * Config.clkPerUs else s.tmr
  let s1 := if s.tmr = 0 then s.record (.delayUs n) else s
  if left ≤ 1 then afterAction m { s1 with tmr := 0 } else { s1 with tmr := left - 1 }

/-- The state after a step, or unchanged where the step stops. -/
def settled (o : Host.Outcome State Fault Refusal) (s : State) : State :=
  match o with
  | .next t => t
  | .fault _ => s
  | .refused _ => s

/-- One tick of a running operation at row `m`. -/
def runTick (p : PortsIn) (m : Micro) (s : State) : State :=
  match microInstr m s with
  | none => settled (step s) s
  | some (.delayUs n) => delayTick m n s
  | some i => settled (step { s with env := portAnswer p i :: s.env }) s

/-- One tick of the command port: a valid command is accepted in Idle; a refused one changes nothing (R38, R80). -/
def portTick (p : PortsIn) (s : State) : State :=
  if p.cmdValid then settled (exec (decodeCmd10 p.cmd) s) s else s

/-- The row the sequencer is at; `none` in Idle and past a table. -/
def rowOf (s : State) : Option Micro :=
  match s.seq with
  | .idle => none
  | .run op upc => stepTable op upc

/-- One tick without reset. -/
def liveTick (p : PortsIn) (s : State) : State :=
  if s.seq = .idle then portTick p s
  else
    match rowOf s with
    | none => s
    | some m => runTick p m s

/-- Is this tick's action answered with an error? -/
def errsNow (p : PortsIn) (s : State) : Bool :=
  match rowOf s with
  | none => false
  | some m =>
    match microInstr m s with
    | none => false
    | some i => errPort p i

/-- One tick: `rst` is synchronous; an operation it cuts short gives no result and leaves the latches unknown (R37, R44,
R207); `res_valid` is 1 for the tick in which an operation ends; a failing action's `err_info` is copied. -/
def tick (p : PortsIn) (c : Clocked) : Clocked :=
  if p.rst then { core := constructEngine c.core, resValid := false, resInfo := 0 }
  else
    { core := liveTick p c.core
      resValid := c.core.seq != .idle && (liveTick p c.core).seq == .idle
      resInfo := if errsNow p c.core then p.errInfo else c.resInfo }

/-- `n` ticks with the same inputs. -/
def ticks (p : PortsIn) : Nat → Clocked → Clocked
  | 0, c => c
  | n + 1, c => ticks p n (tick p c)

end Sys2Proof.Machine
end

