-- ==== Sys2Proof/Machine/Pseudo.lean ====
section
/-! DEFINITION. The pseudocode of the operations as whole functions, written from the listings POLL, STATE and WRITE of
41_status_poll.md R121 and 42_write.md R131: the second description of an operation, which the step tables are held to. -/

namespace Sys2Proof.Machine

/-- `lo_q <- BUS_READ()`. -/
def readIntoLo (s : State) : Acted :=
  match s.answer with
  | .ok levels => (actBusRead s).map fun t => { t with loQ := nibbleOf levels }
  | .err _ => actBusRead s

/-- `hi_q <- BUS_READ()`. -/
def readIntoHi (s : State) : Acted :=
  match s.answer with
  | .ok levels => (actBusRead s).map fun t => { t with hiQ := nibbleOf levels }
  | .err _ => actBusRead s

/-- POLL (R121): RS_LOW; RW_HIGH; PULSE_ENABLE; lo_q <- BUS_READ(); PULSE_ENABLE; hi_q <- BUS_READ(); the join. -/
def pollProc (s : State) : Acted :=
  ((((((actRsLow s).andThen actRwHigh).andThen pulse).andThen readIntoLo).andThen pulse).andThen readIntoHi).map
    fun t => { t with sr := join t.loQ t.hiQ }

/-- STATE (R121): `v <- POLL(); return Success(v)`. -/
def stateProc (s : State) : State :=
  match pollProc s with
  | .done t => endOp (.successStatus t.sr) t
  | .failed t => t

/-- The RS action of the data phase (20_memory.md R67). -/
def actRs (kind : Kind) (s : State) : Acted :=
  match kind with
  | .instr => actRsLow s
  | .data => actRsHigh s

/-- The data phase (R133): RS, RW_LOW, low nibble, pulse, high nibble, pulse. -/
def dataProc (kind : Kind) (b : Byte) (s : State) : Acted :=
  (((((actRs kind { s with loQ := lo4 b, hiQ := hi4 b }).andThen actRwLow).andThen (actBusWrite (lo4 b))).andThen
    pulse).andThen (actBusWrite (hi4 b))).andThen pulse

/-- WRITE (R131): poll; RetryLater if busy; else the data phase and Success. -/
def writeProc (kind : Kind) (b : Byte) (s : State) : State :=
  match pollProc s with
  | .failed t => t
  | .done t =>
    if busyFlag t.sr then endOp .retryLater t
    else
      match dataProc kind b t with
      | .failed u => u
      | .done u => endOp .success u

/-- An operation by its pseudocode. -/
def opProc (op : Op) (s : State) : State :=
  match op with
  | .state => stateProc s
  | .write kind b => writeProc kind b s

end Sys2Proof.Machine
end

