-- ==== Sys2Proof/Safety.lean ====
section
/-! DEFINITION. What counts as a safe run, in the terms the statements use: the run of one operation to its end, the
environment's answers over a phase, the invariant of the sequencer and of the stream. -/

namespace Sys2Proof.Machine

/-! ## Runs of one operation -/

/-- Step until the engine is idle, at most `fuel` steps. -/
def runToIdle : Nat → State → Host.Outcome State Fault Refusal
  | 0, s => .next s
  | n + 1, s =>
    match s.seq with
    | .idle => .next s
    | .run _ _ =>
      match step s with
      | .next t => runToIdle n t
      | .fault r => .fault r
      | .refused r => .refused r

/-- The most steps an operation takes: 13 for a poll, 26 for a write (10_state.md R27). -/
def opSteps : Op → Nat
  | .state => 13
  | .write _ _ => 26

/-! ## What the environment answers -/

/-- The next `n` fallible actions are all answered ok. -/
def okFor (n : Nat) (s : State) : Prop := ∀ k, k < n → ∃ v, s.answerAt k = .ok v

/-- The nibble the `k`-th next answer carries. -/
def nibbleAt (s : State) (k : Nat) : Nibble :=
  match s.answerAt k with
  | .ok v => nibbleOf v
  | .err _ => 0

/-- The byte a poll starting here would assemble: of its eight answers the fifth and the eighth are the reads (R121). -/
def polledByte (s : State) : Byte := join (nibbleAt s 4) (nibbleAt s 7)

/-- The state with its first `n` answers drawn. -/
def drawnBy (n : Nat) (s : State) : State := { s with env := s.env.drop n, draws := s.draws + n }

/-! ## The lines at each step -/

/-- The line a step can fail on; `none` for delays and internal completions (60_exceptions.md R177). -/
def fallibleLine (upc : Nat) : Option Line :=
  match upc with
  | 0 => some .rs
  | 1 => some .rw
  | 2 => some .en
  | 4 => some .en
  | 6 => some .bus
  | 7 => some .en
  | 9 => some .en
  | 11 => some .bus
  | 13 => some .rs
  | 14 => some .rw
  | 15 => some .bus
  | 16 => some .en
  | 18 => some .en
  | 20 => some .bus
  | 21 => some .en
  | 23 => some .en
  | _ => none

/-- The last step of an operation. -/
def lastStep : Op → Nat
  | .state => 12
  | .write _ _ => 25

/-- Steps at which E has just been driven high: its delay and its E_LOW. -/
def eIsHigh (n : Nat) : Bool := [3, 4, 8, 9, 17, 18, 22, 23].contains n

/-- Steps at which the last pulse of the operation has driven E low again. -/
def eIsLow (n : Nat) : Bool := [5, 6, 7, 10, 11, 12, 13, 14, 15, 16, 19, 20, 21, 24, 25].contains n

/-! ## The invariant -/

/-- The command latch holds the word of the operation that runs (10_state.md R29). -/
def latchedCommand (op : Op) (cmd : BitVec 10) : Prop :=
  match op with
  | .state => ∃ db, cmd = stateWord db
  | .write kind b => cmd = writeWord kind b

/-- What holds of a write past its busy test: the polled byte was not busy, the nibble latches hold the operand, RS and RW
select the operand's register, each nibble is on the bus until after its pulse (42_write.md R131, 20_memory.md R62, R67). -/
def DataPhase (kind : Kind) (b : Byte) (n : Nat) (s : State) : Prop :=
  (13 ≤ n → busyFlag s.sr = false ∧ s.loQ = lo4 b ∧ s.hiQ = hi4 b) ∧
  (14 ≤ n → s.rsQ = rsLevelOf kind) ∧
  (15 ≤ n → s.rwQ = .L) ∧
  (16 ≤ n → n ≤ 20 → s.dbQ = some (lo4 b)) ∧
  (21 ≤ n → s.dbQ = some (hi4 b))

/-- What holds before step `n` of `op` (R121, R131). -/
def AtStep (op : Op) (n : Nat) (s : State) : Prop :=
  n ≤ lastStep op ∧
  latchedCommand op s.cmdQ ∧
  (1 ≤ n → n ≤ 13 → s.rsQ = .L) ∧
  (2 ≤ n → n ≤ 14 → s.rwQ = .H) ∧
  (eIsHigh n = true → s.enQ = .H) ∧
  (eIsLow n = true → s.enQ = .L) ∧
  (∀ kind b, op = .write kind b → DataPhase kind b n s)

/-- While a stream runs its index is within the sequence, and the operation that runs is the write of that byte (R150, R151). -/
def StreamAt (st : ByteStream) (s : State) : Prop :=
  st.k < st.bytes.length ∧
  ∀ op upc, s.seq = .run op upc → ∃ b, st.bytes[st.k]? = some b ∧ op = .write .data b

/-- The invariant of the machine. -/
def Consistent (s : State) : Prop :=
  (∀ op upc, s.seq = .run op upc → AtStep op upc.toNat s) ∧
  (∀ st, s.stream = some st → StreamAt st s)

/-- No error port is asserted and there is no reset. -/
def QuietPorts (p : PortsIn) : Prop :=
  p.rst = false ∧ p.rsErr = false ∧ p.rwErr = false ∧ p.eErr = false ∧ p.busErr = false

/-- On the clock the pulse timer runs only within a delay of a step table, below the count it is loaded with (10_state.md
R32). -/
def TimerWithin (c : Clocked) : Prop :=
  c.core.tmr ≠ 0 → c.core.tmr < Config.clkPerUs ∧
    rowOf c.core = some (.action (.delayUs 1))

/-- The events a history gained. -/
def gained (s t : State) (es : List Event) : Prop := t.trace = s.trace ++ es

/-- The nibbles a history writes to the bus, in order. -/
def writtenNibbles : List Event → List Nibble
  | [] => []
  | .busWrite v :: rest => v :: writtenNibbles rest
  | _ :: rest => writtenNibbles rest

/-- The rows of an operation's table that satisfy `p`, in order. -/
def rowsWhere (p : Micro → Bool) (op : Op) : List Nat :=
  (List.range 32).filter fun n =>
    match stepTable op (BitVec.ofNat 5 n) with
    | some m => p m
    | none => false

/-- The rows of an operation's table that are the action `i`. -/
def rowsOf (i : Instr) (op : Op) : List Nat := rowsWhere (fun m => m == .action i) op

/-! ## What a failure leaves, by the place it happens -/

/-- The line of the `k`-th fallible action of a poll phase (41_status_poll.md R122). -/
def pollLine : Nat → Line
  | 0 => .rs
  | 1 => .rw
  | 2 => .en
  | 3 => .en
  | 4 => .bus
  | 5 => .en
  | 6 => .en
  | _ => .bus

/-- The actions of a poll phase whose `k`-th fallible action fails, that action the last; `l` is the nibble read first
(R122, 95_test_vectors.md V-SF). -/
def failedPoll (l : Nibble) : Nat → List Event
  | 0 => [.rsLow]
  | 1 => [.rsLow, .rwHigh]
  | 2 => [.rsLow, .rwHigh, .eHigh]
  | 3 => [.rsLow, .rwHigh, .eHigh, .delayUs 1, .eLow]
  | 4 => [.rsLow, .rwHigh] ++ pulseHistory ++ [.busRead 0]
  | 5 => [.rsLow, .rwHigh] ++ pulseHistory ++ [.busRead l, .eHigh]
  | 6 => [.rsLow, .rwHigh] ++ pulseHistory ++ [.busRead l, .eHigh, .delayUs 1, .eLow]
  | _ => [.rsLow, .rwHigh] ++ pulseHistory ++ [.busRead l] ++ pulseHistory ++ [.busRead 0]

/-- `rs_q` after such a failure (R122). -/
def failedPollRs : Nat → Level
  | 0 => .U
  | _ => .L

/-- `rw_q` after such a failure, `q` its level before (R122). -/
def failedPollRw (q : Level) : Nat → Level
  | 0 => q
  | 1 => .U
  | _ => .H

/-- `en_q` after such a failure, `q` its level before (R122). -/
def failedPollEn (q : Level) : Nat → Level
  | 0 => q
  | 1 => q
  | 4 => .L
  | 7 => .L
  | _ => .U

/-- How many complete pulses the controller has seen (R122, its last paragraph). -/
def failedPollPulses : Nat → Nat
  | 0 => 0
  | 1 => 0
  | 2 => 0
  | 3 => 0
  | 7 => 2
  | _ => 1

/-- The rows of R122: an operation whose poll fails at its `k`-th fallible action. -/
def PollFailsAt (op : Op) (k : Nat) : Prop :=
  ∀ s cmd x, okFor k s → s.answerAt k = .err x →
    ∃ t, runToIdle (opSteps op) (startOp op cmd s) = .next t ∧
      t.seq = .idle ∧ t.res = some (.failed (failureOn (pollLine k) x)) ∧
      gained s t (failedPoll (nibbleAt s 4) k ++ [.fail (pollLine k)]) ∧
      t.rsQ = failedPollRs k ∧ t.rwQ = failedPollRw s.rwQ k ∧ t.enQ = failedPollEn s.enQ k ∧ t.dbQ = s.dbQ ∧
      pulses (failedPoll (nibbleAt s 4) k) = failedPollPulses k ∧
      busWrites (failedPoll (nibbleAt s 4) k) = 0 ∧
      t.sr = s.sr ∧ t.stream = s.stream ∧ t.accepted = s.accepted ∧ t.host = s.host ∧
      t.env = s.env.drop (k + 1) ∧ t.draws = s.draws + (k + 1)

/-- The line of the `k`-th fallible action of a data phase (42_write.md R136). -/
def dataLine : Nat → Line
  | 0 => .rs
  | 1 => .rw
  | 2 => .bus
  | 3 => .en
  | 4 => .en
  | 5 => .bus
  | _ => .en

/-- The actions of a data phase whose `k`-th fallible action fails, that action the last (R136, 95_test_vectors.md V-F). -/
def failedData (kind : Kind) (b : Byte) : Nat → List Event
  | 0 => [rsEvent kind]
  | 1 => [rsEvent kind, .rwLow]
  | 2 => [rsEvent kind, .rwLow, .busWrite (lo4 b)]
  | 3 => [rsEvent kind, .rwLow, .busWrite (lo4 b), .eHigh]
  | 4 => [rsEvent kind, .rwLow, .busWrite (lo4 b), .eHigh, .delayUs 1, .eLow]
  | 5 => [rsEvent kind, .rwLow, .busWrite (lo4 b)] ++ pulseHistory ++ [.busWrite (hi4 b)]
  | 6 => [rsEvent kind, .rwLow, .busWrite (lo4 b)] ++ pulseHistory ++ [.busWrite (hi4 b), .eHigh]
  | _ => [rsEvent kind, .rwLow, .busWrite (lo4 b)] ++ pulseHistory ++ [.busWrite (hi4 b), .eHigh, .delayUs 1, .eLow]

/-- `rs_q` after such a failure (R136). -/
def failedDataRs (kind : Kind) : Nat → Level
  | 0 => .U
  | _ => rsLevelOf kind

/-- `rw_q` after such a failure (R136). -/
def failedDataRw : Nat → Level
  | 0 => .H
  | 1 => .U
  | _ => .L

/-- `en_q` after such a failure: low from the poll's last pulse or the first data pulse, else unknown (R136). -/
def failedDataEn : Nat → Level
  | 0 => .L
  | 1 => .L
  | 2 => .L
  | 5 => .L
  | _ => .U

/-- `db_q` after such a failure, `q` its value before (R136). -/
def failedDataDb (b : Byte) (q : Option Nibble) : Nat → Option Nibble
  | 0 => q
  | 1 => q
  | 2 => none
  | 3 => some (lo4 b)
  | 4 => some (lo4 b)
  | 5 => none
  | _ => some (hi4 b)

/-- Bus writes that were done (R136: the failed one does not count). -/
def failedDataWrites : Nat → Nat
  | 0 => 0
  | 1 => 0
  | 2 => 0
  | 3 => 1
  | 4 => 1
  | 5 => 1
  | _ => 2

/-- Complete pulses of the data phase (R136; "half" is a pulse that did not complete). -/
def failedDataPulses : Nat → Nat
  | 0 => 0
  | 1 => 0
  | 2 => 0
  | 3 => 0
  | 4 => 0
  | _ => 1

/-- Bus writes of a history that were not followed by the marker of a bus failure. -/
def writesDone : List Event → Nat
  | .busWrite _ :: .fail .bus :: rest => writesDone rest
  | .busWrite _ :: rest => writesDone rest + 1
  | _ :: rest => writesDone rest
  | [] => 0

/-- The rows of R136: a write whose data phase fails at its `k`-th fallible action. -/
def DataFailsAt (kind : Kind) (b : Byte) (k : Nat) : Prop :=
  ∀ s cmd x, okFor (8 + k) s → busyFlag (polledByte s) = false → s.answerAt (8 + k) = .err x →
    ∃ t es, runToIdle 26 (startOp (.write kind b) cmd s) = .next t ∧
      t.seq = .idle ∧ t.res = some (.failed (failureOn (dataLine k) x)) ∧
      es = failedData kind b k ++ [.fail (dataLine k)] ∧
      gained s t (pollHistory (nibbleAt s 4) (nibbleAt s 7) ++ es) ∧
      t.rsQ = failedDataRs kind k ∧ t.rwQ = failedDataRw k ∧ t.enQ = failedDataEn k ∧ t.dbQ = failedDataDb b s.dbQ k ∧
      writesDone es = failedDataWrites k ∧ pulses es = failedDataPulses k ∧
      t.stream = s.stream ∧ t.accepted = s.accepted ∧ t.host = s.host ∧
      t.env = s.env.drop (8 + k + 1) ∧ t.draws = s.draws + (8 + k + 1)

end Sys2Proof.Machine
end

