-- ==== Sys2Proof/Certificates/Slice0/Obligations.lean ====
section
/-! DEFINITION. The statements for the provers, taken from the numbered rules of spec/. A free value (an answer past the
script, an error value) is never assumed to have a value: every statement holds for all of them. -/

open Sys2Proof Sys2Proof.Machine

/-! ## Encodings -/

/-- Command words, event bytes, constants and the pulse word of the spec, handed to the table decoder, decode to what they
stand for (30_encoding.md R76 to R88, 95_test_vectors.md V-C). That a word known by its number of bits alone is read as CMD10
(16 bits), as the instruction byte (0x01, 0x02), as EVT8 (any other byte) or as EVT8x4 (32 bits) is the model's choice of log
entry 3. -/
def Obligations.SpecWordsDecode : Prop :=
  decodeTableWord 16 0x241 = some (.writeData 0x41) ∧ decodeTableWord 16 0x0FF = some (.writeInstr 0xFF) ∧
  decodeTableWord 16 0x1FF = some (.state 0xFF) ∧ decodeTableWord 16 0x341 = some (.reservedDataRead 0x41) ∧
  decodeTableWord 8 0x01 = some .clearDisplay ∧ decodeTableWord 8 0x61 = some (.delayUs 1) ∧
  decodeTableWord 8 0xF2 = some (.fail .en) ∧ decodeTableWord 8 0x8A = some (.busRead 0xA) ∧
  decodeTableWord 32 0x50614061 = some .pulseEnable ∧
  (∀ b : Byte, 0x90 ≤ b.toNat → b.toNat < 0xF0 → decodeTableWord 8 b.toNat = none)

/-- Decoding what the encoder writes gives the instruction back, for every instruction and every operand: each word of a
facade row decodes to the command it issues, each other row to itself (30_encoding.md R76 to R87, R91, R93). The word of
WRITE_CHAR for a character wider than a byte is the model's choice of log entry 17. -/
def Obligations.DecodeOfEncode : Prop :=
  ∀ i : Instr, (encode i).map Code.decode = i.core.map Except.ok ∧ (i.isPseudo = false → i.core = [i])

/-- A word that decodes has one meaning in its format, the instruction whose encoding it is (30_encoding.md R75, R81 to R83,
R85, R88, R92, R93). Of the instruction byte this is said for the two bytes the document names (R87): its other bytes are the
payload of WRITE_INSTR, which has the command word for its encoding. -/
def Obligations.EncodeOfDecode : Prop :=
  ∀ (f : Format) (w : Nat) (i : Instr), decode f w = .ok i →
    (f = .lcdi8 → w = 1 ∨ w = 2) → encode i = [⟨f, w⟩]

/-- The two top bits of a command word are the whole decode and the four quarters partition the 1024 words (R92). -/
def Obligations.CommandWordsPartition : Prop :=
  ∀ w : BitVec 10,
    (w.toNat < 0x100 → decodeCmd10 w = .writeInstr (BitVec.ofNat 8 w.toNat)) ∧
    (0x100 ≤ w.toNat → w.toNat < 0x200 → decodeCmd10 w = .state (BitVec.ofNat 8 w.toNat)) ∧
    (0x200 ≤ w.toNat → w.toNat < 0x300 → decodeCmd10 w = .writeData (BitVec.ofNat 8 w.toNat)) ∧
    (0x300 ≤ w.toNat → decodeCmd10 w = .reservedDataRead (BitVec.ofNat 8 w.toNat))

/-- A history is written in bytes and read back unchanged; a byte of code 0x9 to 0xE is never recorded, and a list of bytes
that holds one is not read (R85, R88, 93_implementation_defined.md U20). That a delay of another argument than 1 is read back is
the model's choice of log entry 18. -/
def Obligations.HistoryBytesRoundTrip : Prop :=
  (∀ t : List Event, eventsOf (evt8s t) = some t) ∧
  (∀ (t : List Event) (b : Byte), 0x90 ≤ b.toNat → b.toNat < 0xF0 → b ∉ evt8s t) ∧
  (∀ (bs : List Byte) (b : Byte), b ∈ bs → 0x90 ≤ b.toNat → b.toNat < 0xF0 → eventsOf bs = none)

/-- The status byte: bit 7 busy, bits 6:0 address; the decode is total, the encode its inverse, and the document's worked
value (R81). -/
def Obligations.StatusByteLayout : Prop :=
  (∀ v : Byte, (decodeStatus v).busy = decide (0x80 ≤ v.toNat) ∧ (decodeStatus v).busy = v.getLsbD 7 ∧
    (decodeStatus v).addr.toNat = (v &&& 0x7F#8).toNat ∧ encodeStatus (decodeStatus v) = v) ∧
  (∀ st : Status, decodeStatus (encodeStatus st) = st ∧
    (encodeStatus st).toNat = (if st.busy then 0x80 else 0x00) ||| st.addr.toNat) ∧
  decodeStatus 0xAA#8 = ⟨true, 0x2A#7⟩

/-- Splitting and joining undo each other, and so do a nibble and its four bus levels, element `i` being bit `i`
(20_memory.md R57, R58, 30_encoding.md R82 to R84). -/
def Obligations.NibbleRoundTrips : Prop :=
  (∀ b : Byte, join (lo4 b) (hi4 b) = b ∧ (lo4 b).toNat = b.toNat % 16 ∧ (hi4 b).toNat = b.toNat / 16) ∧
  (∀ l h : Nibble, lo4 (join l h) = l ∧ hi4 (join l h) = h ∧ (join l h).toNat = 16 * h.toNat + l.toNat) ∧
  (∀ v : Nibble, nibbleOf (levelsOf v) = v ∧
    (levelsOf v).e0 = bitLevel (v.getLsbD 0) ∧ (levelsOf v).e1 = bitLevel (v.getLsbD 1) ∧
    (levelsOf v).e2 = bitLevel (v.getLsbD 2) ∧ (levelsOf v).e3 = bitLevel (v.getLsbD 3)) ∧
  (∀ x : Bus4, levelsOf (nibbleOf x) = x)

/-- The result word: kind, line and status fields, and the error value beside it; kind 3 is never produced (R86). -/
def Obligations.ResultWords : Prop :=
  Result.res12 .success = 0x000#12 ∧ (∀ v : Byte, (Result.res12 (.successStatus v)).toNat = v.toNat) ∧
  Result.res12 .retryLater = 0x400#12 ∧
  (∀ e : ErrInfoRs, Result.res12 (.failed (.rs e)) = 0x800#12) ∧
  (∀ e : ErrInfoRw, Result.res12 (.failed (.rw e)) = 0x900#12) ∧
  (∀ e : ErrInfoEn, Result.res12 (.failed (.en e)) = 0xA00#12) ∧
  (∀ e : ErrInfoBus, Result.res12 (.failed (.bus e)) = 0xB00#12) ∧
  (∀ f : Failure, Result.info? (.failed f) = some f) ∧
  (∀ r : Result, (Result.res12 r).toNat < 0xC00)

/-! ## The line primitives -/

/-- RS_LOW and RS_HIGH (40_line_primitives.md R101, R102): encoding, the latch and the history when the pin answers ok, the
failure when it answers err, and the steps that use them. -/
def Obligations.RsActions : Prop :=
  encode .rsLow = [⟨.evt8, 0x00⟩] ∧ encode .rsHigh = [⟨.evt8, 0x10⟩] ∧
  (∀ (s : State) (v : Bus4), s.answer = .ok v →
    exec .rsLow s = .next { s with rsQ := .L, trace := s.trace ++ [.rsLow], env := s.env.tail, draws := s.draws + 1 } ∧
    exec .rsHigh s = .next { s with rsQ := .H, trace := s.trace ++ [.rsHigh], env := s.env.tail, draws := s.draws + 1 }) ∧
  (∀ (s : State) (x : ErrInfos), s.answer = .err x →
    exec .rsLow s = .next { s with rsQ := .U, trace := s.trace ++ [.rsLow, .fail .rs], env := s.env.tail, draws := s.draws + 1, res := some (.failed (.rs x.rs)), seq := .idle } ∧
    exec .rsHigh s = .next { s with rsQ := .U, trace := s.trace ++ [.rsHigh, .fail .rs], env := s.env.tail, draws := s.draws + 1, res := some (.failed (.rs x.rs)), seq := .idle }) ∧
  rowsOf .rsLow .state = [0] ∧ rowsOf .rsHigh .state = [] ∧
  (∀ b : Byte, rowsOf .rsLow (.write .instr b) = [0, 13] ∧ rowsOf .rsHigh (.write .instr b) = [] ∧
    rowsOf .rsLow (.write .data b) = [0] ∧ rowsOf .rsHigh (.write .data b) = [13])

/-- RW_LOW and RW_HIGH (R103, R104). -/
def Obligations.RwActions : Prop :=
  encode .rwLow = [⟨.evt8, 0x20⟩] ∧ encode .rwHigh = [⟨.evt8, 0x30⟩] ∧
  (∀ (s : State) (v : Bus4), s.answer = .ok v →
    exec .rwLow s = .next { s with rwQ := .L, trace := s.trace ++ [.rwLow], env := s.env.tail, draws := s.draws + 1 } ∧
    exec .rwHigh s = .next { s with rwQ := .H, trace := s.trace ++ [.rwHigh], env := s.env.tail, draws := s.draws + 1 }) ∧
  (∀ (s : State) (x : ErrInfos), s.answer = .err x →
    exec .rwLow s = .next { s with rwQ := .U, trace := s.trace ++ [.rwLow, .fail .rw], env := s.env.tail, draws := s.draws + 1, res := some (.failed (.rw x.rw)), seq := .idle } ∧
    exec .rwHigh s = .next { s with rwQ := .U, trace := s.trace ++ [.rwHigh, .fail .rw], env := s.env.tail, draws := s.draws + 1, res := some (.failed (.rw x.rw)), seq := .idle }) ∧
  rowsOf .rwLow .state = [] ∧ rowsOf .rwHigh .state = [1] ∧
  (∀ (kind : Kind) (b : Byte), rowsOf .rwLow (.write kind b) = [14] ∧ rowsOf .rwHigh (.write kind b) = [1])

/-- E_HIGH and E_LOW (R105, R106), whatever `en_q` held before; used in pulses only: each E_HIGH row is followed by a
delay, an E_LOW row and a delay (R110). -/
def Obligations.EnableActions : Prop :=
  encode .eHigh = [⟨.evt8, 0x50⟩] ∧ encode .eLow = [⟨.evt8, 0x40⟩] ∧
  (∀ (s : State) (v : Bus4), s.answer = .ok v →
    exec .eHigh s = .next { s with enQ := .H, trace := s.trace ++ [.eHigh], env := s.env.tail, draws := s.draws + 1 } ∧
    exec .eLow s = .next { s with enQ := .L, trace := s.trace ++ [.eLow], env := s.env.tail, draws := s.draws + 1 }) ∧
  (∀ (s : State) (x : ErrInfos), s.answer = .err x →
    exec .eHigh s = .next { s with enQ := .U, trace := s.trace ++ [.eHigh, .fail .en], env := s.env.tail, draws := s.draws + 1, res := some (.failed (.en x.en)), seq := .idle } ∧
    exec .eLow s = .next { s with enQ := .U, trace := s.trace ++ [.eLow, .fail .en], env := s.env.tail, draws := s.draws + 1, res := some (.failed (.en x.en)), seq := .idle }) ∧
  (∀ op : Op, rowsOf .eLow op = (rowsOf .eHigh op).map (· + 2) ∧
    rowsOf (.delayUs 1) op = (rowsOf .eHigh op).flatMap (fun n => [n + 1, n + 3])) ∧
  rowsOf .eHigh .state = [2, 7] ∧ (∀ (kind : Kind) (b : Byte), rowsOf .eHigh (.write kind b) = [2, 7, 16, 21])

/-- BUS_WRITE (R108): all four levels in one call; used by the data phase only, at steps 15 and 20, once a nibble. -/
def Obligations.BusWriteAction : Prop :=
  (∀ v : Nibble, encode (.busWrite v) = [⟨.evt8, 0x70 ||| v.toNat⟩]) ∧
  (∀ (v : Nibble) (s : State) (x : Bus4), s.answer = .ok x →
    exec (.busWrite v) s = .next { s with dbQ := some v, trace := s.trace ++ [.busWrite v], env := s.env.tail, draws := s.draws + 1 }) ∧
  (∀ (v : Nibble) (s : State) (x : ErrInfos), s.answer = .err x →
    exec (.busWrite v) s = .next { s with dbQ := none, trace := s.trace ++ [.busWrite v, .fail .bus], env := s.env.tail, draws := s.draws + 1, res := some (.failed (.bus x.bus)), seq := .idle }) ∧
  rowsWhere (fun m => m == .writeLo || m == .writeHi) .state = [] ∧
  (∀ (kind : Kind) (b : Byte), rowsWhere (fun m => m == .writeLo) (.write kind b) = [15] ∧
    rowsWhere (fun m => m == .writeHi) (.write kind b) = [20]) ∧
  (∀ (v : Nibble) (op : Op), rowsOf (.busWrite v) op = []) ∧
  levelsOf 0x1 = ⟨.high, .low, .low, .low⟩

/-- BUS_READ (R109): the nibble the bus answers is recorded and yielded, no latch changes; a failed read records 0. That
`out` holds the yielded nibble, and that `db_q` stays, are the model's choices of log entries 6 and 9. -/
def Obligations.BusReadAction : Prop :=
  (∀ (v : Nibble) (s : State) (x : Bus4), s.answer = .ok x →
    exec (.busRead v) s = .next { s with out := some (.nibble (nibbleOf x)), trace := s.trace ++ [.busRead (nibbleOf x)], env := s.env.tail, draws := s.draws + 1 }) ∧
  (∀ (v : Nibble) (s : State) (x : ErrInfos), s.answer = .err x →
    exec (.busRead v) s = .next { s with trace := s.trace ++ [.busRead 0, .fail .bus], env := s.env.tail, draws := s.draws + 1, res := some (.failed (.bus x.bus)), seq := .idle })

/-- DELAY_US (R107): the event, no line, no answer of the environment asked for, for every argument; every delay of a
step table asks for 1 µs, and no step records another (R88). That the pulse timer, which is the clocked rendering's, is 0
afterwards is log entry 13. -/
def Obligations.DelayOnlyRecords : Prop :=
  (∀ (n : Nibble) (s : State), exec (.delayUs n) s = .next { s with trace := s.trace ++ [.delayUs n], tmr := 0 }) ∧
  (∀ (n : Nibble) (op : Op), n ≠ 1 → rowsOf (.delayUs n) op = []) ∧
  (∀ (s t : State) (es : List Event) (n : Nibble), (s.seq = .idle → s.stream = none → s.host.head? ≠ some .new) →
    step s = .next t → gained s t es → .delayUs n ∈ es → n = 1)

/-- PULSE_ENABLE (R110): its encoding; its four actions, cut short when E_HIGH fails (no delay, no E_LOW) or E_LOW fails (no
second delay); a pulse that completes ends with `en_q` low, whatever it was before; and wherever a step table has a pulse, its
four steps leave what this instruction leaves, the step counter past them, or Idle after a failure. That the pulse timer is 0
afterwards is log entry 13. -/
def Obligations.EnablePulse : Prop :=
  encode .pulseEnable = [⟨.evt8x4, 0x50614061⟩] ∧
  (∀ (s : State) (v w : Bus4), s.answerAt 0 = .ok v → s.answerAt 1 = .ok w →
    exec .pulseEnable s = .next { s with enQ := .L, trace := s.trace ++ [.eHigh, .delayUs 1, .eLow, .delayUs 1], tmr := 0, env := s.env.drop 2, draws := s.draws + 2 }) ∧
  (∀ (s : State) (x : ErrInfos), s.answerAt 0 = .err x →
    exec .pulseEnable s = .next { s with enQ := .U, trace := s.trace ++ [.eHigh, .fail .en], env := s.env.drop 1, draws := s.draws + 1, res := some (.failed (.en x.en)), seq := .idle }) ∧
  (∀ (s : State) (v : Bus4) (x : ErrInfos), s.answerAt 0 = .ok v → s.answerAt 1 = .err x →
    exec .pulseEnable s = .next { s with enQ := .U, trace := s.trace ++ [.eHigh, .delayUs 1, .eLow, .fail .en], tmr := 0, env := s.env.drop 2, draws := s.draws + 2, res := some (.failed (.en x.en)), seq := .idle }) ∧
  (∀ (s : State) (op : Op) (upc : BitVec 5), s.seq = .run op upc → upc.toNat ∈ rowsOf .eHigh op →
    ∃ t, exec .pulseEnable s = .next t ∧
      runToIdle 4 s = .next (if t.seq = .idle then t else { t with seq := .run op (upc + 4) }))

/-- FAIL (60_exceptions.md R178): the latch of the line unknown, the marker, the result with some error value, the
sequencer idle, and nothing else but the counter of free values. That a bus failure taken alone leaves `db_q` unknown is the
model's choice (log entry 8). -/
def Obligations.FailTakesFailure : Prop :=
  ∀ (l : Line) (s : State), ∃ x : ErrInfos,
    exec (.fail l) s = .next { latchUnknown l s with trace := s.trace ++ [.fail l], res := some (.failed (failureOn l x)), seq := .idle, draws := s.draws + 1 }

/-- SPLIT, JOIN and DECODE_STATUS (R111 to R113): the value yielded, as numbers; no line, no event, nothing else changes.
That `out` holds the value is the model's choice (log entry 6). -/
def Obligations.PureFunctions : Prop :=
  (∀ (b : Byte) (s : State), ∃ l h : Nibble, l.toNat = b.toNat % 16 ∧ h.toNat = b.toNat / 16 ∧
    exec (.split b) s = .next { s with out := some (.pair l h) }) ∧
  (∀ (l h : Nibble) (s : State), ∃ v : Byte, v.toNat = 16 * h.toNat + l.toNat ∧
    exec (.join l h) s = .next { s with out := some (.byte v) }) ∧
  (∀ (v : Byte) (s : State), ∃ st : Status, st.busy = decide (0x80 ≤ v.toNat) ∧ st.addr.toNat = v.toNat % 128 ∧
    exec (.decodeStatus v) s = .next { s with out := some (.status st) })

/-! ## The commands -/

/-- A presented command is accepted when the machine is ready and starts its operation at step 0, the command latch
holding the word; else it is not accepted and not stored (10_state.md R26, R27, R29, R38, 44_instruction_table.md R166,
R167, R169). -/
def Obligations.CommandsAccepted : Prop :=
  ∀ s : State,
    (s.ready = true →
      (∀ db : Byte, exec (.state db) s = .next { s with cmdQ := 0x100#10 ||| db.setWidth 10, seq := .run .state 0 }) ∧
      (∀ b : Byte, exec (.writeInstr b) s = .next { s with cmdQ := b.setWidth 10, seq := .run (.write .instr b) 0 }) ∧
      (∀ b : Byte, exec (.writeData b) s = .next { s with cmdQ := 0x200#10 ||| b.setWidth 10, seq := .run (.write .data b) 0 }) ∧
      exec .clearDisplay s = .next { s with cmdQ := 0x001#10, seq := .run (.write .instr 0x01#8) 0 } ∧
      exec .returnHome s = .next { s with cmdQ := 0x002#10, seq := .run (.write .instr 0x02#8) 0 }) ∧
    (s.ready = false → ∀ b : Byte, exec (.state b) s = .next s ∧ exec (.writeInstr b) s = .next s ∧
      exec (.writeData b) s = .next s ∧ exec .clearDisplay s = .next s ∧ exec .returnHome s = .next s)

/-- The reserved command is refused by name, in every state, whatever its low byte (30_encoding.md R80, 42_write.md R139); so
is its word when it is placed as the next one a machine made ready takes. That a word of 16 bits is read as CMD10, and how it
is placed, is the model's choice of log entry 3. -/
def Obligations.ReservedCommandRefused : Prop :=
  (∀ (db : Byte) (s : State), exec (.reservedDataRead db) s = .refused .reservedDataRead) ∧
  (∀ (w : Nat) (s : State), 0x300 ≤ w → w < 0x400 → step (s.withFetchWord 16 w) = .refused .reservedDataRead)

/-- INSTR_SET is the business of the well-formedness check, not of the machine: the two named bytes are always members, a
byte outside is refused by name by the check, and the machine, handed one, transfers it like any other (R168, R169). -/
def Obligations.InstrSetCheckedOutsideTheMachine : Prop :=
  (Instr.WellFormed (.writeInstr 0x01) ∧ Instr.WellFormed (.writeInstr 0x02) ∧
    Instr.WellFormed .clearDisplay ∧ Instr.WellFormed .returnHome) ∧
  (∀ (set : List Byte) (i : Byte), i ∉ set → (Instr.writeInstr i).check set = .error (.notInInstrSet i) ∧
    (Instr.facadeWrite .instr i).check set = .error (.notInInstrSet i)) ∧
  (∀ (b : Byte) (s : State), s.ready = true →
    ∃ t, exec (.writeInstr b) s = .next t ∧ t.seq = .run (.write .instr b) 0)

/-- STATE with every action answered ok: its acceptance and its 13 steps, the whole state it leaves (41_status_poll.md R120,
R121, R124). That the latches private to the operation keep what its steps left in them is log entry 1, that `out` keeps the
last nibble log entry 6, that the pulse timer is 0 log entry 13. -/
def Obligations.StatePollCompletes : Prop :=
  ∀ (s : State) (db : Byte), s.ready = true → okFor 8 s →
    ∃ t, exec (.state db) s = .next t ∧
      runToIdle 13 t = .next { s with
        rsQ := .L, rwQ := .H, enQ := .L, cmdQ := stateWord db, loQ := nibbleAt s 4, hiQ := nibbleAt s 7,
        sr := polledByte s, res := some (.successStatus (polledByte s)), tmr := 0,
        trace := s.trace ++ pollHistory (nibbleAt s 4) (nibbleAt s 7), out := some (.nibble (nibbleAt s 7)),
        env := s.env.drop 8, draws := s.draws + 8 }

/-- A write whose poll reads the busy flag set: the poll and nothing else, RetryLater (42_write.md R132, R138). What the private
latches, `out` and the pulse timer hold is of log entries 1, 6 and 13. -/
def Obligations.BusyWriteRetriesLater : Prop :=
  ∀ (s : State) (kind : Kind) (b : Byte), s.ready = true → okFor 8 s → 0x80 ≤ (polledByte s).toNat →
    ∃ t, exec (.facadeWrite kind b) s = .next t ∧ (kind = .instr → exec (.writeInstr b) s = .next t) ∧
      (kind = .data → exec (.writeData b) s = .next t) ∧
      runToIdle 26 t = .next { s with
        rsQ := .L, rwQ := .H, enQ := .L, cmdQ := writeWord kind b, loQ := nibbleAt s 4, hiQ := nibbleAt s 7,
        sr := polledByte s, res := some .retryLater, tmr := 0,
        trace := s.trace ++ pollHistory (nibbleAt s 4) (nibbleAt s 7), out := some (.nibble (nibbleAt s 7)),
        env := s.env.drop 8, draws := s.draws + 8 }

/-- A write whose poll reads the busy flag clear, every action answered ok: poll, data phase, Success; the low nibble goes
out first, RS is low for Instr and high for Data (R131, R133, R134, R135, R138, 20_memory.md R56, R67). What the private latches,
`out` and the pulse timer hold is of log entries 1, 6 and 13. -/
def Obligations.WriteTransfersByte : Prop :=
  ∀ (s : State) (kind : Kind) (b : Byte), s.ready = true → okFor 16 s → (polledByte s).toNat < 0x80 →
    ∃ t, exec (.facadeWrite kind b) s = .next t ∧ (kind = .instr → exec (.writeInstr b) s = .next t) ∧
      (kind = .data → exec (.writeData b) s = .next t) ∧
      runToIdle 26 t = .next { s with
        rsQ := rsLevelOf kind, rwQ := .L, enQ := .L, dbQ := some (hi4 b), cmdQ := writeWord kind b,
        loQ := lo4 b, hiQ := hi4 b, sr := polledByte s, res := some .success, tmr := 0,
        trace := s.trace ++ pollHistory (nibbleAt s 4) (nibbleAt s 7) ++ dataHistory kind b,
        out := some (.nibble (nibbleAt s 7)), env := s.env.drop 16, draws := s.draws + 16 }

/-- CLEAR_DISPLAY and RETURN_HOME are WRITE_INSTR of 0x01 and 0x02; not busy, the bytes of the data phase are the
document's: RS low throughout, nibbles 0x1 then 0x0, or 0x2 then 0x0 (R166, R167). -/
def Obligations.NamedInstructionsTransfer : Prop :=
  (∀ s : State, exec .clearDisplay s = exec (.writeInstr 0x01) s ∧ exec .returnHome s = exec (.writeInstr 0x02) s) ∧
  (∀ s : State, s.ready = true → okFor 16 s → (polledByte s).toNat < 0x80 →
    (∃ t u, exec .clearDisplay s = .next t ∧ runToIdle 26 t = .next u ∧ u.res = some .success ∧ u.dbQ = some 0 ∧
      evt8s u.trace = evt8s (s.trace ++ pollHistory (nibbleAt s 4) (nibbleAt s 7)) ++
        [0x00, 0x20, 0x71, 0x50, 0x61, 0x40, 0x61, 0x70, 0x50, 0x61, 0x40, 0x61]) ∧
    (∃ t u, exec .returnHome s = .next t ∧ runToIdle 26 t = .next u ∧ u.res = some .success ∧ u.dbQ = some 0 ∧
      evt8s u.trace = evt8s (s.trace ++ pollHistory (nibbleAt s 4) (nibbleAt s 7)) ++
        [0x00, 0x20, 0x72, 0x50, 0x61, 0x40, 0x61, 0x70, 0x50, 0x61, 0x40, 0x61]))

/-- Every row of the poll phase's failure table, for every operation: which line, what the history holds, the latches
afterwards, and no partial status (41_status_poll.md R122, R123). That `db_q` stands also where the failed action is a
BUS_READ is no row of that table: it is the model's reading of log entry 9. -/
def Obligations.PollFailureTable : Prop :=
  ∀ (op : Op) (k : Nat), k < 8 → PollFailsAt op k

/-- Every row of a write's failure table: in the poll phase as R122, in the data phase with the bus writes and pulses done,
the latches afterwards, no repair (42_write.md R136). That `db_q` stands after a failed BUS_READ of the poll is the model's
reading of log entry 9. -/
def Obligations.WriteFailureTable : Prop :=
  ∀ (kind : Kind) (b : Byte) (k : Nat), k < 8 → PollFailsAt (.write kind b) k ∧ DataFailsAt kind b k

/-! ## The facade -/

/-- FACADE_STATE and FACADE_WRITE are STATE and WRITE, in every state; ready, they start the operation
(43_timed_facade.md R148, R149). -/
def Obligations.FacadePassesThrough : Prop :=
  ∀ (s : State) (b : Byte),
    exec (.facadeState b) s = exec (.state b) s ∧ exec (.facadeWrite .instr b) s = exec (.writeInstr b) s ∧
    exec (.facadeWrite .data b) s = exec (.writeData b) s ∧
    (s.ready = true →
      exec (.facadeState b) s = .next { s with cmdQ := stateWord b, seq := .run .state 0 } ∧
      ∀ kind : Kind, exec (.facadeWrite kind b) s = .next { s with cmdQ := writeWord kind b, seq := .run (.write kind b) 0 })

/-- A stream operation that the host may start: the first byte's WRITE_DATA is issued at once; the empty sequence ends in
Success with no action; a character wider than a byte is refused by name (R150 to R152). That the count stands in `accepted` is
log entry 5, that a stream operation started out of turn changes nothing log entry 14. -/
def Obligations.StreamOpens : Prop :=
  (∀ s : State, s.ready = true →
    (∀ (b : Byte) (bs : List Byte),
      exec (.writeBytes (b :: bs)) s = .next { s with stream := some ⟨b :: bs, 0⟩, cmdQ := writeWord .data b, seq := .run (.write .data b) 0 }) ∧
    exec (.writeBytes []) s = .next { s with res := some .success, accepted := 0 } ∧
    (∀ b : Byte, exec (.writeByteBlocking b) s = .next { s with stream := some ⟨[b], 0⟩, cmdQ := writeWord .data b, seq := .run (.write .data b) 0 }) ∧
    (∀ c : Nat, c < 256 →
      exec (.writeChar c) s = .next { s with stream := some ⟨[BitVec.ofNat 8 c], 0⟩, cmdQ := writeWord .data (BitVec.ofNat 8 c), seq := .run (.write .data (BitVec.ofNat 8 c)) 0 })) ∧
  (∀ (s : State) (c : Nat), 256 ≤ c → exec (.writeChar c) s = .refused (.wideCharacter c)) ∧
  (∀ (s : State) (bs : List Byte) (b : Byte) (c : Nat), s.ready = false → c < 256 →
    exec (.writeBytes bs) s = .next s ∧ exec (.writeByteBlocking b) s = .next s ∧ exec (.writeChar c) s = .next s)

/-- The stream's turn when an inner write has ended: RetryLater, the same byte again at once; Success, the next byte, or the
end with all accepted; Failed, the end with that failure and the count accepted (R150, R151). The stop at Failed with the count
is the spec's own choice, not the document's (R150, R151, D12). That the count stands in `accepted`, also after Success, is the
model's choice of log entry 5. -/
def Obligations.StreamTurns : Prop :=
  ∀ (s : State) (st : ByteStream), s.seq = .idle → s.stream = some st → st.k < st.bytes.length →
    (s.res = some .retryLater → ∃ b, st.bytes[st.k]? = some b ∧
      step s = .next { s with cmdQ := writeWord .data b, seq := .run (.write .data b) 0 }) ∧
    (s.res = some .success → st.k + 1 < st.bytes.length → ∃ b, st.bytes[st.k + 1]? = some b ∧
      step s = .next { s with stream := some ⟨st.bytes, st.k + 1⟩, cmdQ := writeWord .data b, seq := .run (.write .data b) 0 }) ∧
    (s.res = some .success → st.k + 1 = st.bytes.length →
      step s = .next { s with stream := none, accepted := st.bytes.length, res := some .success }) ∧
    (∀ f, s.res = some (.failed f) →
      step s = .next { s with stream := none, accepted := st.k, res := some (.failed f) })

/-- A blocking byte whose polls read busy `m` times and then not busy, every action answered ok: it ends in Success with
the byte accepted once, in 12m + 24 actions, 2m + 2 bus reads, 2 bus writes and at least 4m + 8 µs (R150, R226). That the count
stands in `accepted` after Success is the model's choice of log entry 5. -/
def Obligations.BlockingByteRetriesUntilAccepted : Prop :=
  ∀ (m : Nat) (b : Byte) (s : State), s.ready = true → okFor (8 * m + 16) s →
    (∀ j, j < m → busyFlag (join (nibbleAt s (8 * j + 4)) (nibbleAt s (8 * j + 7))) = true) →
    busyFlag (join (nibbleAt s (8 * m + 4)) (nibbleAt s (8 * m + 7))) = false →
    ∃ t, exec (.writeByteBlocking b) s = .next t ∧
      ∃ n u es, Sys2Proof.core.run n t = .next u ∧ u.ready = true ∧ u.res = some .success ∧ u.accepted = 1 ∧
        gained s u es ∧ actions es = 12 * m + 24 ∧ busReads es = 2 * m + 2 ∧ writtenNibbles es = [lo4 b, hi4 b] ∧
        minMicros es = 4 * m + 8 ∧ u.rsQ = .H ∧ u.rwQ = .L ∧ u.enQ = .L ∧ u.dbQ = some (hi4 b)

/-- WRITE_BYTES, never busy, every action answered ok: every byte goes out in sequence order, low nibble first, each with
its own poll, 24 actions a byte, and all are accepted (R151, 20_memory.md R53, R56). That the count stands in `accepted` after
Success is the model's choice of log entry 5. -/
def Obligations.StreamSendsBytesInOrder : Prop :=
  ∀ (bs : List Byte) (s : State), s.ready = true → okFor (16 * bs.length) s →
    (∀ j, j < bs.length → busyFlag (join (nibbleAt s (16 * j + 4)) (nibbleAt s (16 * j + 7))) = false) →
    ∃ t, exec (.writeBytes bs) s = .next t ∧
      ∃ n u es, Sys2Proof.core.run n t = .next u ∧ u.ready = true ∧ u.res = some .success ∧
        u.accepted = bs.length ∧ gained s u es ∧ actions es = 24 * bs.length ∧ busReads es = 2 * bs.length ∧
        writtenNibbles es = bs.flatMap fun b => [lo4 b, hi4 b]

/-- WRITE_CHAR of a one-byte character, not busy: one WRITE_DATA of it, and the stream ends (R152). That the count stands in
`accepted` after Success is the model's choice of log entry 5. -/
def Obligations.CharGoesOutAsOneByte : Prop :=
  ∀ (c : Nat) (s : State), c < 256 → s.ready = true → okFor 16 s → (polledByte s).toNat < 0x80 →
    ∃ t, exec (.writeChar c) s = .next t ∧
      ∃ n u es, Sys2Proof.core.run n t = .next u ∧ u.ready = true ∧ u.res = some .success ∧ u.accepted = 1 ∧
        gained s u es ∧ es = pollHistory (nibbleAt s 4) (nibbleAt s 7) ++ dataHistory .data (BitVec.ofNat 8 c)

/-- The stream can hang (43_timed_facade.md R153). First clause: whenever every answer is ok and every poll reads bit 7 set, it
never ends, however many steps are taken. Second clause: there is such an environment, the one whose every read is 0x8 for ever
(95_test_vectors.md V-X6); under it the busy poll is repeated without end and nothing is handed back. That a lasting answer
stands in State is log entry 2. -/
def Obligations.StreamCanHang : Prop :=
  (∀ (b : Byte) (s : State), s.ready = true → (∀ k, ∃ v, s.answerAt k = .ok v) →
    (∀ j, busyFlag (join (nibbleAt s (8 * j + 4)) (nibbleAt s (8 * j + 7))) = true) →
    ∃ t, exec (.writeByteBlocking b) s = .next t ∧
      ∀ n, ∃ u, Sys2Proof.core.run n t = .next u ∧ u.stream = some ⟨[b], 0⟩ ∧ u.accepted = s.accepted) ∧
  (∀ (b : Byte) (s : State), s.ready = true → s.env = [] → s.envRest = some (.ok (levelsOf 8)) →
    ∃ t, exec (.writeByteBlocking b) s = .next t ∧
      ∀ m, ∃ u, Sys2Proof.core.run (14 * m) t = .next u ∧ u.stream = some ⟨[b], 0⟩ ∧ u.seq = .run (.write .data b) 0 ∧
        gained s u (List.replicate m (pollHistory 8 8)).flatten)

/-- NEW, FACADE_NEW and RELEASE as moves of the host: NEW leaves the sequencer, the line latches, the result, the history and
the stream as the reset table says, the other two and a wait change nothing but take the move (R145 to R147, 10_state.md R44).
That the moves stand in State is log entry 3; that the lines are `U` is INIT_LINES' default (log entry 15); that NEW is taken
while an engine exists, and in any order with the other moves, is the model's choice of log entry 19. -/
def Obligations.OwnershipMoves : Prop :=
  ∀ (s : State) (rest : List Request), s.seq = .idle → s.stream = none →
    (s.host = .new :: rest → ∃ t, step s = .next t ∧ t.seq = .idle ∧ t.rsQ = .U ∧ t.rwQ = .U ∧ t.enQ = .U ∧
      t.dbQ = none ∧ t.res = none ∧ t.trace = [] ∧ t.stream = none ∧ t.host = rest ∧ t.env = s.env ∧ t.envRest = s.envRest) ∧
    (s.host = .facadeNew :: rest → step s = .next { s with host := rest }) ∧
    (s.host = .release :: rest → step s = .next { s with host := rest }) ∧
    (s.host = .wait :: rest → step s = .next { s with host := rest })

/-! ## The machine -/

/-- In Idle, with no stream, the host's next word that decodes is run by `exec`, the move taken off the host's list; so is
an operation called by name; a word that does not decode is refused, and so, by name, is a line primitive, the marker or a pulse,
which the engine does not perform in Idle (10_state.md R26, R38, 20_memory.md R64, 60_exceptions.md R190). How moves stand in
State is the model's choice of log entry 3. -/
def Obligations.StepRunsPresentedInstruction : Prop :=
  ∀ (s : State) (rest : List Request), s.seq = .idle → s.stream = none →
    (∀ (c : Code) (i : Instr), s.host = .code c :: rest → c.decode = .ok i → internal i = false →
      step s = exec i { s with host := rest }) ∧
    (∀ i : Instr, s.host = .call i :: rest → internal i = false → step s = exec i { s with host := rest }) ∧
    (∀ (c : Code) (i : Instr), s.host = .code c :: rest → c.decode = .ok i → internal i = true →
      step s = .refused (.internalAction i)) ∧
    (∀ i : Instr, s.host = .call i :: rest → internal i = true → step s = .refused (.internalAction i)) ∧
    (∀ (c : Code) (why : Undecoded), s.host = .code c :: rest → c.decode = .error why → step s = .refused (.undecoded why)) ∧
    (s.host = [] → step s = .next s)

/-- In Idle the engine performs no primitive action and every line keeps its level: whatever the host's move or the stream's
turn, no answer of the environment is drawn, and no event is recorded and no line latch changed but by NEW, which builds the engine
anew (10_state.md R26, 43_timed_facade.md R145, R147). That NEW may be taken again is log entry 19. -/
def Obligations.IdlePerformsNoAction : Prop :=
  ∀ s t : State, s.seq = .idle → step s = .next t →
    t.env = s.env ∧ t.envRest = s.envRest ∧ t.draws = s.draws ∧
    ((s.stream = none → s.host.head? ≠ some .new) →
      t.trace = s.trace ∧ t.rsQ = s.rsQ ∧ t.rwQ = s.rwQ ∧ t.enQ = s.enQ ∧ t.dbQ = s.dbQ)

/-- The word placed as the next instruction is the one the next step runs: a command by `exec` in a ready machine; a line
primitive as the row the sequencer is at; a pulse at its first row; the marker with an action of a poll that fails on its line; a
delay of another argument than 1 is no row and is refused. How a word is placed is the model's choice of log entry 3. -/
def Obligations.PlacedWordIsNext : Prop :=
  ∀ (s : State) (nbits w : Nat) (i : Instr), decodeTableWord nbits w = some i →
    (internal i = false → step (s.withFetchWord nbits w) = exec i { s with seq := .idle, stream := none }) ∧
    (∀ op upc, actionRow i = some (op, upc) → (s.withFetchWord nbits w).seq = .run op upc ∧
      ∃ m i', stepTable op upc = some m ∧ microInstr m (s.withFetchWord nbits w) = some i' ∧ ∀ u, exec i' u = exec i u) ∧
    (i = .pulseEnable → (s.withFetchWord nbits w).seq = .run .state 2) ∧
    (∀ l, i = .fail l → ∃ t e x, step (s.withFetchWord nbits w) = .next t ∧ isAction e = true ∧
      t.trace = s.trace ++ [e, .fail l] ∧ t.res = some (.failed (failureOn l x)) ∧ t.seq = .idle) ∧
    (∀ n, i = .delayUs n → n ≠ 1 → step (s.withFetchWord nbits w) = .refused (.internalAction i))

/-- While an operation runs, a step runs by `exec` the primitive of the row its step counter is at; an action that did not
fail is followed by the next step, and a nibble read is stored in the row's latch (R27, R28, 41_status_poll.md R121,
42_write.md R131). -/
def Obligations.StepRunsTableRow : Prop :=
  ∀ (s t : State) (op : Op) (upc : BitVec 5) (m : Micro) (i : Instr),
    s.seq = .run op upc → stepTable op upc = some m → microInstr m s = some i → exec i s = .next t →
    (t.seq = .idle → step s = .next t) ∧
    (t.seq = .run op upc →
      (m ≠ .readLo → m ≠ .readHi → step s = .next { t with seq := .run op (upc + 1) }) ∧
      (∀ v, t.out = some (.nibble v) → m = .readLo → step s = .next { t with loQ := v, seq := .run op (upc + 1) }) ∧
      (∀ v, t.out = some (.nibble v) → m = .readHi → step s = .next { t with hiQ := v, seq := .run op (upc + 1) }))

/-- What reset leaves; and from reset, with no move of the host, nothing ever happens: no line is driven, no event recorded
(10_state.md R26, R44, 70_reset_and_hazards.md R206, R208). That RS, RW and E are `U` and that nothing is known on the bus is the
default of the spec's open parameter INIT_LINES, which the model takes: DESIGN CHOICE, log entry 15. That no move of the host
stands at reset is the model's choice of log entry 3. -/
def Obligations.ResetValues : Prop :=
  State.reset.seq = .idle ∧ State.reset.rsQ = .U ∧ State.reset.rwQ = .U ∧ State.reset.enQ = .U ∧
  State.reset.dbQ = none ∧ State.reset.res = none ∧ State.reset.tmr = 0 ∧ State.reset.trace = [] ∧
  State.reset.stream = none ∧ (∀ n, Sys2Proof.core.run n State.reset = .next State.reset)

/-- The invariant at reset. -/
def Obligations.ConsistentAtReset : Prop := Consistent State.reset

/-- Every step keeps the invariant: at each step of a running operation the lines, the nibble latches, the command latch
and the bus hold what the step tables have put there, and a running stream is within its sequence (10_state.md R27, R29,
41_status_poll.md R121, 42_write.md R131, 43_timed_facade.md R151). -/
def Obligations.StepKeepsConsistent : Prop :=
  ∀ s t : State, Consistent s → step s = .next t → Consistent t

/-- In every state that meets the invariant no step of a running operation faults or is refused: the step counter never
leaves its table (R27, 60_exceptions.md R175). -/
def Obligations.RunningOperationNeverStops : Prop :=
  ∀ (s : State) (op : Op) (upc : BitVec 5), Consistent s → s.seq = .run op upc → ∃ t, step s = .next t

/-- The step counter: one step that does not end the operation adds 1; the operation ends exactly at a failed action, at
step 12 of a poll or of a write that reads busy, and at step 25 (R27). -/
def Obligations.StepCounterAdvances : Prop :=
  ∀ (s : State) (op : Op) (upc : BitVec 5), s.seq = .run op upc → upc.toNat ≤ lastStep op →
    ∃ t, step s = .next t ∧ (t.seq = .idle ∨ t.seq = .run op (upc + 1)) ∧
      (t.seq = .idle ↔
        (∃ l x, fallibleLine upc.toNat = some l ∧ s.answer = .err x) ∨
        (upc.toNat = 12 ∧ (op = .state ∨ busyFlag (join s.loQ s.hiQ) = true)) ∨
        upc.toNat = 25)

/-- Taking a failure: an action answered err ends the operation at once with that line and that error value, unmodified;
the history gains the action's byte and the marker and nothing more; the line's latch is unknown but for a read, every other
line stands; the operand and the status are not touched (60_exceptions.md R176 to R180). That a failed read leaves `db_q` is
log entry 9. -/
def Obligations.FailureEndsOperation : Prop :=
  ∀ (s : State) (op : Op) (upc : BitVec 5) (l : Line) (x : ErrInfos),
    s.seq = .run op upc → upc.toNat ≤ lastStep op → fallibleLine upc.toNat = some l → s.answer = .err x →
    ∃ (t : State) (e : Event), step s = .next t ∧ isAction e = true ∧ t.trace = s.trace ++ [e, .fail l] ∧
      t.res = some (.failed (failureOn l x)) ∧ t.seq = .idle ∧
      t.rsQ = (if l = .rs then .U else s.rsQ) ∧ t.rwQ = (if l = .rw then .U else s.rwQ) ∧
      t.enQ = (if l = .en then .U else s.enQ) ∧
      t.dbQ = (if l = .bus ∧ isBusWrite e = true then none else s.dbQ) ∧
      t.loQ = s.loQ ∧ t.hiQ = s.hiQ ∧ t.sr = s.sr ∧ t.cmdQ = s.cmdQ ∧ t.out = s.out ∧ t.tmr = s.tmr ∧
      t.stream = s.stream ∧ t.accepted = s.accepted ∧ t.host = s.host ∧ t.env = s.env.tail ∧ t.draws = s.draws + 1

/-- While an operation runs nothing of the host is taken: no command is accepted or stored, the command latch and the
stream stand, and the result is written at the end and not before (10_state.md R29, R31, R38, R42). -/
def Obligations.RunningOperationIsUndisturbed : Prop :=
  ∀ (s t : State) (op : Op) (upc : BitVec 5), s.seq = .run op upc → step s = .next t →
    t.host = s.host ∧ t.cmdQ = s.cmdQ ∧ t.stream = s.stream ∧ t.accepted = s.accepted ∧
    (t.seq ≠ .idle → t.res = s.res) ∧ (t.seq = .idle → t.res ≠ none)

/-- A step is one primitive action or one internal completion, whatever the machine is doing: it records
at most one action, with at most the marker of its failure after it, and asks for at most one answer (00_scope.md R13). NEW,
which empties the history (while an engine exists: the model's choice, log entry 19), is left to OwnershipMoves. -/
def Obligations.StepPerformsOneAction : Prop :=
  ∀ s t : State, (s.seq = .idle → s.stream = none → s.host.head? ≠ some .new) → step s = .next t →
    ∃ es, gained s t es ∧ actions es ≤ 1 ∧
      (es = [] ∨ (∃ e, es = [e]) ∨ ∃ e l, isAction e = true ∧ es = [e, .fail l]) ∧
      (t.env = s.env ∨ t.env = s.env.tail) ∧ (t.draws = s.draws ∨ t.draws = s.draws + 1)

/-- The history only grows, but for NEW (log entry 19), and a latch changes only when its own line's action, or its failure, is recorded:
nothing else writes it (R21, R22, R41). -/
def Obligations.LatchesFollowTheHistory : Prop :=
  ∀ s t : State, (s.seq = .idle → s.stream = none → s.host.head? ≠ some .new) → step s = .next t →
    ∃ es, gained s t es ∧
      (t.rsQ ≠ s.rsQ → .rsLow ∈ es ∨ .rsHigh ∈ es ∨ .fail .rs ∈ es) ∧
      (t.rwQ ≠ s.rwQ → .rwLow ∈ es ∨ .rwHigh ∈ es ∨ .fail .rw ∈ es) ∧
      (t.enQ ≠ s.enQ → .eLow ∈ es ∨ .eHigh ∈ es ∨ .fail .en ∈ es) ∧
      (t.dbQ ≠ s.dbQ → (∃ v, .busWrite v ∈ es) ∨ .fail .bus ∈ es)

/-- Whatever a running operation does to the bus is an access of the address map: E goes high, and the bus is read or
written, only with RS and RW selecting a register; the bus is read only with STATUS selected and E low, and written only
with IR or DR selected and E low; never is the bus written with RW high (20_memory.md R51, R52, R67, R68,
70_reset_and_hazards.md R218). -/
def Obligations.AccessesAreSelected : Prop :=
  ∀ (s t : State) (op : Op) (upc : BitVec 5) (es : List Event), Consistent s → s.seq = .run op upc → step s = .next t →
    gained s t es →
    (.eHigh ∈ es → selected s.rsQ s.rwQ ≠ none) ∧
    (∀ v, .busRead v ∈ es → selected s.rsQ s.rwQ = some .status ∧ s.enQ = .L) ∧
    (∀ v, .busWrite v ∈ es → (selected s.rsQ s.rwQ = some .ir ∨ selected s.rsQ s.rwQ = some .dr) ∧ s.enQ = .L ∧
      ∃ kind b, op = .write kind b ∧ (v = lo4 b ∨ v = hi4 b))

/-- Every operation ends, in Success with or without a status, RetryLater or Failed, within its table's steps, whatever the
environment answers; a poll never answers RetryLater (60_exceptions.md R175, R176, 41_status_poll.md R120, 42_write.md
R130). -/
def Obligations.OperationsEnd : Prop :=
  ∀ (s : State) (op : Op) (cmd : BitVec 10),
    ∃ t r es, runToIdle (opSteps op) (startOp op cmd s) = .next t ∧ t.seq = .idle ∧ t.res = some r ∧ gained s t es ∧
      actions es ≤ 24 ∧ (op = .state → actions es ≤ 12 ∧ r ≠ .retryLater ∧ r ≠ .success) ∧
      (op ≠ .state → ∀ v, r ≠ .successStatus v)

/-- The counts of an operation by its result: a poll and a busy write take 12 actions, 2 pulses, 2 reads, no write, 4 delays
and at least 4 µs; a successful write 24 actions, 4 pulses, 2 reads, 2 writes, 8 delays and at least 8 µs (41_status_poll.md
R126, 42_write.md R140, 70_reset_and_hazards.md R226). -/
def Obligations.OperationCounts : Prop :=
  ∀ (s t : State) (op : Op) (cmd : BitVec 10) (es : List Event),
    runToIdle (opSteps op) (startOp op cmd s) = .next t → gained s t es →
    ((∃ v, t.res = some (.successStatus v)) ∨ t.res = some .retryLater →
      actions es = 12 ∧ pulses es = 2 ∧ busReads es = 2 ∧ busWrites es = 0 ∧ delays es = 4 ∧ minMicros es = 4) ∧
    (t.res = some .success →
      actions es = 24 ∧ pulses es = 4 ∧ busReads es = 2 ∧ busWrites es = 2 ∧ delays es = 8 ∧ minMicros es = 8)

/-- The step tables do what the pseudocode says: an operation run step by step to its end leaves exactly the state that the
listings POLL, STATE and WRITE give, in every state and whatever the environment answers (R121, R131). -/
def Obligations.StepTablesMeetPseudocode : Prop :=
  ∀ (s : State) (op : Op) (cmd : BitVec 10),
    runToIdle (opSteps op) (startOp op cmd s) = .next (opProc op (startOp op cmd s))

/-- No operation depends on what went before: two states with the same answers of the environment to come, whatever their
lines, latches, results and histories, give the same result, the same new events and the same levels on RS, RW and E
wherever the operation drove them; in particular no operand and no status of an earlier operation is seen
(10_state.md R24, R25, 41_status_poll.md R125, 42_write.md R138, 60_exceptions.md R183). -/
def Obligations.OperationsForgetThePast : Prop :=
  ∀ (s₁ s₂ : State) (op : Op) (c₁ c₂ : BitVec 10), s₁.env = s₂.env → s₁.envRest = s₂.envRest → s₁.draws = s₂.draws →
    ∃ t₁ t₂ es, runToIdle (opSteps op) (startOp op c₁ s₁) = .next t₁ ∧
      runToIdle (opSteps op) (startOp op c₂ s₂) = .next t₂ ∧
      t₁.res = t₂.res ∧ t₁.seq = t₂.seq ∧ gained s₁ t₁ es ∧ gained s₂ t₂ es ∧
      t₁.rsQ = t₂.rsQ ∧ (t₁.rwQ = t₂.rwQ ∨ .rwHigh ∉ es) ∧ (t₁.enQ = t₂.enQ ∨ .eHigh ∉ es) ∧
      t₁.env = t₂.env ∧ t₁.envRest = t₂.envRest ∧ t₁.draws = t₂.draws

/-! ## The clocked rendering -/

/-- On the clock, a delay row takes CLK_PER_US ticks: its event is recorded at the first, no line changes, and the last one
goes on to the next step (10_state.md R32, 70_reset_and_hazards.md R227). How the ticks are shared out is log entry 13. -/
def Obligations.DelayTakesClkPerUsTicks : Prop :=
  ∀ (p : PortsIn) (c : Clocked) (op : Op) (upc : BitVec 5), p.rst = false → c.core.tmr = 0 →
    c.core.seq = .run op upc → stepTable op upc = some (.action (.delayUs 1)) →
    ticks p Config.clkPerUs c =
      { core := { c.core with trace := c.core.trace ++ [.delayUs 1], seq := .run op (upc + 1) }, resValid := false, resInfo := c.resInfo }

/-- On the clock the pulse timer is 0 but within a delay: every tick keeps that, whatever the input ports (R32). How the
ticks are shared out is log entry 13. -/
def Obligations.ClockTimerRunsOnlyInDelays : Prop :=
  ∀ (p : PortsIn) (c : Clocked), TimerWithin c → TimerWithin (tick p c)

/-- On the clock, with no error port asserted, the 12 actions of a STATE take 8 + 4 CLK_PER_US ticks (70_reset_and_hazards.md
R227) and one more ends it with its result; the output ports then (10_state.md R37). The tick of step 12 and how the ticks are
shared out are log entry 13. -/
def Obligations.StateTakesItsTicks : Prop :=
  ∀ (p : PortsIn) (c : Clocked), QuietPorts p → c.core.tmr = 0 → c.core.seq = .run .state 0 →
    (∃ t, ticks p (8 + 4 * Config.clkPerUs) c = ⟨t, false, c.resInfo⟩ ∧ t.seq = .run .state 12) ∧
    portsOut (ticks p (8 + 4 * Config.clkPerUs + 1) c) =
      { cmdReady := true, resValid := true, resKind := 0, resStatus := join p.dbI p.dbI, resLine := 0, resInfo := c.resInfo,
        rs := .L, rw := .H, e := .L, dbO := c.core.dbQ,
        dbOe := Config.dbOePolicy (evt8s (c.core.trace ++ pollHistory p.dbI p.dbI)) }

/-- On the clock, with no error port asserted, the 24 actions of a successful write take 16 + 8 CLK_PER_US ticks (R227), with one
tick for each of the internal steps 12 and 25; one that reads busy ends after 8 + 4 CLK_PER_US ticks and the tick of step 12; the
output ports then (R37). The ticks of steps 12 and 25 and how the ticks are shared out are log entry 13. -/
def Obligations.WriteTakesItsTicks : Prop :=
  ∀ (p : PortsIn) (c : Clocked) (kind : Kind) (b : Byte), QuietPorts p → c.core.tmr = 0 →
    c.core.seq = .run (.write kind b) 0 →
    (busyFlag (join p.dbI p.dbI) = false →
      (∃ t, ticks p (16 + 8 * Config.clkPerUs + 1) c = ⟨t, false, c.resInfo⟩ ∧ t.seq = .run (.write kind b) 25) ∧
      portsOut (ticks p (16 + 8 * Config.clkPerUs + 2) c) =
        { cmdReady := true, resValid := true, resKind := 0, resStatus := 0, resLine := 0, resInfo := c.resInfo,
          rs := rsLevelOf kind, rw := .L, e := .L, dbO := some (hi4 b),
          dbOe := Config.dbOePolicy (evt8s (c.core.trace ++ pollHistory p.dbI p.dbI ++ dataHistory kind b)) }) ∧
    (busyFlag (join p.dbI p.dbI) = true →
      portsOut (ticks p (8 + 4 * Config.clkPerUs + 1) c) =
        { cmdReady := true, resValid := true, resKind := 1, resStatus := 0, resLine := 0, resInfo := c.resInfo,
          rs := .L, rw := .H, e := .L, dbO := c.core.dbQ,
          dbOe := Config.dbOePolicy (evt8s (c.core.trace ++ pollHistory p.dbI p.dbI)) })

/-- On the clock, the error port of the line an action drives, sampled in its tick: asserted, the operation ends in that tick with
Failed of that line, `err_info` copied to `res_info`, the action's event and the marker recorded; not asserted, the tick goes on to
the next step (R37, 60_exceptions.md R177, R178). Which value of the line's type the bits name is open, and one tick an action is
the model's choice (log entry 13). -/
def Obligations.ErrorPortEndsOperation : Prop :=
  ∀ (p : PortsIn) (c : Clocked) (op : Op) (upc : BitVec 5) (l : Line), p.rst = false → c.core.seq = .run op upc →
    upc.toNat ≤ lastStep op → fallibleLine upc.toNat = some l →
    (lineErr p l = true →
      (portsOut (tick p c)).cmdReady = true ∧ (portsOut (tick p c)).resValid = true ∧ (portsOut (tick p c)).resKind = 2 ∧
      (portsOut (tick p c)).resLine = l.code ∧ (portsOut (tick p c)).resStatus = 0 ∧
      (portsOut (tick p c)).resInfo = p.errInfo ∧
      (tick p c).core.res = some (.failed (failureOn l (Config.errOfPort p.errInfo))) ∧
      ∃ e, isAction e = true ∧ (tick p c).core.trace = c.core.trace ++ [e, .fail l]) ∧
    (lineErr p l = false →
      (tick p c).core.seq = .run op (upc + 1) ∧ (tick p c).core.res = c.core.res ∧
      (portsOut (tick p c)).cmdReady = false ∧ (portsOut (tick p c)).resValid = false ∧
      (portsOut (tick p c)).resInfo = c.resInfo)

/-- The ports: the output ports are the latches, and the result fields are those of the result; ready exactly in Idle; a valid
command is taken in that tick with its word in the command latch; one presented while an operation runs is not taken; the reserved
one changes nothing; `rst` gives the reset table's values of the sequencer, the line latches, the timer, the history, the stream
and the result (10_state.md R37, R38, R44, 30_encoding.md R80, R86, 70_reset_and_hazards.md R207). That a command is accepted in
the tick that presents it, and the result ports before the first result, are log entry 13; that the lines are `U` is INIT_LINES'
default (log entry 15). -/
def Obligations.CommandPortHandshake : Prop :=
  ∀ (p : PortsIn) (c : Clocked),
    ((portsOut c).rs = c.core.rsQ ∧ (portsOut c).rw = c.core.rwQ ∧ (portsOut c).e = c.core.enQ ∧
      (portsOut c).dbO = c.core.dbQ ∧ (portsOut c).resValid = c.resValid ∧ (portsOut c).resInfo = c.resInfo) ∧
    (∀ r, c.core.res = some r →
      (portsOut c).resKind ++ (portsOut c).resLine ++ (portsOut c).resStatus = r.res12) ∧
    ((portsOut c).cmdReady = true ↔ c.core.seq = .idle) ∧
    (p.rst = false → p.cmdValid = true → c.core.ready = true → p.cmd.toNat < 0x300 →
      (tick p c).core.cmdQ = p.cmd ∧ ∃ op, (tick p c).core.seq = .run op 0 ∧ latchedCommand op p.cmd) ∧
    (p.rst = false → c.core.seq = .idle → p.cmdValid = true → 0x300 ≤ p.cmd.toNat → (tick p c).core = c.core) ∧
    (∀ op upc, p.rst = false → c.core.seq = .run op upc → (tick p c).core.cmdQ = c.core.cmdQ) ∧
    (p.rst = true → (tick p c).core.seq = .idle ∧ (tick p c).core.rsQ = .U ∧ (tick p c).core.rwQ = .U ∧
      (tick p c).core.enQ = .U ∧ (tick p c).core.dbQ = none ∧ (tick p c).core.tmr = 0 ∧ (tick p c).core.trace = [] ∧
      (tick p c).core.stream = none ∧ (tick p c).core.res = none ∧ (tick p c).resValid = false)
end

