-- ==== Sys2Proof/Laws/State.lean ====
section
/-! SUPPORT. The small lemmas of the state's updates: one per field per update, all true by unfolding. -/

namespace Sys2Proof.Machine

/-! ### State.record -/

@[simp] theorem State.record_rsQ (e : Event) (s : State) : (s.record e).rsQ = s.rsQ := rfl

@[simp] theorem State.record_rwQ (e : Event) (s : State) : (s.record e).rwQ = s.rwQ := rfl

@[simp] theorem State.record_enQ (e : Event) (s : State) : (s.record e).enQ = s.enQ := rfl

@[simp] theorem State.record_dbQ (e : Event) (s : State) : (s.record e).dbQ = s.dbQ := rfl

@[simp] theorem State.record_seq (e : Event) (s : State) : (s.record e).seq = s.seq := rfl

@[simp] theorem State.record_cmdQ (e : Event) (s : State) : (s.record e).cmdQ = s.cmdQ := rfl

@[simp] theorem State.record_loQ (e : Event) (s : State) : (s.record e).loQ = s.loQ := rfl

@[simp] theorem State.record_hiQ (e : Event) (s : State) : (s.record e).hiQ = s.hiQ := rfl

@[simp] theorem State.record_sr (e : Event) (s : State) : (s.record e).sr = s.sr := rfl

@[simp] theorem State.record_res (e : Event) (s : State) : (s.record e).res = s.res := rfl

@[simp] theorem State.record_tmr (e : Event) (s : State) : (s.record e).tmr = s.tmr := rfl

@[simp] theorem State.record_trace (e : Event) (s : State) : (s.record e).trace = s.trace ++ [e] := rfl

@[simp] theorem State.record_stream (e : Event) (s : State) : (s.record e).stream = s.stream := rfl

@[simp] theorem State.record_accepted (e : Event) (s : State) : (s.record e).accepted = s.accepted := rfl

@[simp] theorem State.record_out (e : Event) (s : State) : (s.record e).out = s.out := rfl

@[simp] theorem State.record_host (e : Event) (s : State) : (s.record e).host = s.host := rfl

@[simp] theorem State.record_env (e : Event) (s : State) : (s.record e).env = s.env := rfl

@[simp] theorem State.record_envRest (e : Event) (s : State) : (s.record e).envRest = s.envRest := rfl

@[simp] theorem State.record_draws (e : Event) (s : State) : (s.record e).draws = s.draws := rfl

/-! ### State.drawn -/

@[simp] theorem State.drawn_rsQ (s : State) : (s.drawn).rsQ = s.rsQ := rfl

@[simp] theorem State.drawn_rwQ (s : State) : (s.drawn).rwQ = s.rwQ := rfl

@[simp] theorem State.drawn_enQ (s : State) : (s.drawn).enQ = s.enQ := rfl

@[simp] theorem State.drawn_dbQ (s : State) : (s.drawn).dbQ = s.dbQ := rfl

@[simp] theorem State.drawn_seq (s : State) : (s.drawn).seq = s.seq := rfl

@[simp] theorem State.drawn_cmdQ (s : State) : (s.drawn).cmdQ = s.cmdQ := rfl

@[simp] theorem State.drawn_loQ (s : State) : (s.drawn).loQ = s.loQ := rfl

@[simp] theorem State.drawn_hiQ (s : State) : (s.drawn).hiQ = s.hiQ := rfl

@[simp] theorem State.drawn_sr (s : State) : (s.drawn).sr = s.sr := rfl

@[simp] theorem State.drawn_res (s : State) : (s.drawn).res = s.res := rfl

@[simp] theorem State.drawn_tmr (s : State) : (s.drawn).tmr = s.tmr := rfl

@[simp] theorem State.drawn_trace (s : State) : (s.drawn).trace = s.trace := rfl

@[simp] theorem State.drawn_stream (s : State) : (s.drawn).stream = s.stream := rfl

@[simp] theorem State.drawn_accepted (s : State) : (s.drawn).accepted = s.accepted := rfl

@[simp] theorem State.drawn_out (s : State) : (s.drawn).out = s.out := rfl

@[simp] theorem State.drawn_host (s : State) : (s.drawn).host = s.host := rfl

@[simp] theorem State.drawn_env (s : State) : (s.drawn).env = s.env.tail := rfl

@[simp] theorem State.drawn_envRest (s : State) : (s.drawn).envRest = s.envRest := rfl

@[simp] theorem State.drawn_draws (s : State) : (s.drawn).draws = s.draws + 1 := rfl

/-! ### drawnBy -/

@[simp] theorem drawnBy_rsQ (n : Nat) (s : State) : (drawnBy n s).rsQ = s.rsQ := rfl

@[simp] theorem drawnBy_rwQ (n : Nat) (s : State) : (drawnBy n s).rwQ = s.rwQ := rfl

@[simp] theorem drawnBy_enQ (n : Nat) (s : State) : (drawnBy n s).enQ = s.enQ := rfl

@[simp] theorem drawnBy_dbQ (n : Nat) (s : State) : (drawnBy n s).dbQ = s.dbQ := rfl

@[simp] theorem drawnBy_seq (n : Nat) (s : State) : (drawnBy n s).seq = s.seq := rfl

@[simp] theorem drawnBy_cmdQ (n : Nat) (s : State) : (drawnBy n s).cmdQ = s.cmdQ := rfl

@[simp] theorem drawnBy_loQ (n : Nat) (s : State) : (drawnBy n s).loQ = s.loQ := rfl

@[simp] theorem drawnBy_hiQ (n : Nat) (s : State) : (drawnBy n s).hiQ = s.hiQ := rfl

@[simp] theorem drawnBy_sr (n : Nat) (s : State) : (drawnBy n s).sr = s.sr := rfl

@[simp] theorem drawnBy_res (n : Nat) (s : State) : (drawnBy n s).res = s.res := rfl

@[simp] theorem drawnBy_tmr (n : Nat) (s : State) : (drawnBy n s).tmr = s.tmr := rfl

@[simp] theorem drawnBy_trace (n : Nat) (s : State) : (drawnBy n s).trace = s.trace := rfl

@[simp] theorem drawnBy_stream (n : Nat) (s : State) : (drawnBy n s).stream = s.stream := rfl

@[simp] theorem drawnBy_accepted (n : Nat) (s : State) : (drawnBy n s).accepted = s.accepted := rfl

@[simp] theorem drawnBy_out (n : Nat) (s : State) : (drawnBy n s).out = s.out := rfl

@[simp] theorem drawnBy_host (n : Nat) (s : State) : (drawnBy n s).host = s.host := rfl

@[simp] theorem drawnBy_env (n : Nat) (s : State) : (drawnBy n s).env = s.env.drop n := rfl

@[simp] theorem drawnBy_envRest (n : Nat) (s : State) : (drawnBy n s).envRest = s.envRest := rfl

@[simp] theorem drawnBy_draws (n : Nat) (s : State) : (drawnBy n s).draws = s.draws + n := rfl

/-! ### endOp -/

@[simp] theorem endOp_rsQ (r : Result) (s : State) : (endOp r s).rsQ = s.rsQ := rfl

@[simp] theorem endOp_rwQ (r : Result) (s : State) : (endOp r s).rwQ = s.rwQ := rfl

@[simp] theorem endOp_enQ (r : Result) (s : State) : (endOp r s).enQ = s.enQ := rfl

@[simp] theorem endOp_dbQ (r : Result) (s : State) : (endOp r s).dbQ = s.dbQ := rfl

@[simp] theorem endOp_seq (r : Result) (s : State) : (endOp r s).seq = .idle := rfl

@[simp] theorem endOp_cmdQ (r : Result) (s : State) : (endOp r s).cmdQ = s.cmdQ := rfl

@[simp] theorem endOp_loQ (r : Result) (s : State) : (endOp r s).loQ = s.loQ := rfl

@[simp] theorem endOp_hiQ (r : Result) (s : State) : (endOp r s).hiQ = s.hiQ := rfl

@[simp] theorem endOp_sr (r : Result) (s : State) : (endOp r s).sr = s.sr := rfl

@[simp] theorem endOp_res (r : Result) (s : State) : (endOp r s).res = some r := rfl

@[simp] theorem endOp_tmr (r : Result) (s : State) : (endOp r s).tmr = s.tmr := rfl

@[simp] theorem endOp_trace (r : Result) (s : State) : (endOp r s).trace = s.trace := rfl

@[simp] theorem endOp_stream (r : Result) (s : State) : (endOp r s).stream = s.stream := rfl

@[simp] theorem endOp_accepted (r : Result) (s : State) : (endOp r s).accepted = s.accepted := rfl

@[simp] theorem endOp_out (r : Result) (s : State) : (endOp r s).out = s.out := rfl

@[simp] theorem endOp_host (r : Result) (s : State) : (endOp r s).host = s.host := rfl

@[simp] theorem endOp_env (r : Result) (s : State) : (endOp r s).env = s.env := rfl

@[simp] theorem endOp_envRest (r : Result) (s : State) : (endOp r s).envRest = s.envRest := rfl

@[simp] theorem endOp_draws (r : Result) (s : State) : (endOp r s).draws = s.draws := rfl

/-! ### raiseFail -/

@[simp] theorem raiseFail_rsQ (l : Line) (e : ErrInfos) (s : State) : (raiseFail l e s).rsQ = s.rsQ := rfl

@[simp] theorem raiseFail_rwQ (l : Line) (e : ErrInfos) (s : State) : (raiseFail l e s).rwQ = s.rwQ := rfl

@[simp] theorem raiseFail_enQ (l : Line) (e : ErrInfos) (s : State) : (raiseFail l e s).enQ = s.enQ := rfl

@[simp] theorem raiseFail_dbQ (l : Line) (e : ErrInfos) (s : State) : (raiseFail l e s).dbQ = s.dbQ := rfl

@[simp] theorem raiseFail_seq (l : Line) (e : ErrInfos) (s : State) : (raiseFail l e s).seq = .idle := rfl

@[simp] theorem raiseFail_cmdQ (l : Line) (e : ErrInfos) (s : State) : (raiseFail l e s).cmdQ = s.cmdQ := rfl

@[simp] theorem raiseFail_loQ (l : Line) (e : ErrInfos) (s : State) : (raiseFail l e s).loQ = s.loQ := rfl

@[simp] theorem raiseFail_hiQ (l : Line) (e : ErrInfos) (s : State) : (raiseFail l e s).hiQ = s.hiQ := rfl

@[simp] theorem raiseFail_sr (l : Line) (e : ErrInfos) (s : State) : (raiseFail l e s).sr = s.sr := rfl

@[simp] theorem raiseFail_res (l : Line) (e : ErrInfos) (s : State) : (raiseFail l e s).res = some (.failed (failureOn l e)) := rfl

@[simp] theorem raiseFail_tmr (l : Line) (e : ErrInfos) (s : State) : (raiseFail l e s).tmr = s.tmr := rfl

@[simp] theorem raiseFail_trace (l : Line) (e : ErrInfos) (s : State) : (raiseFail l e s).trace = s.trace ++ [.fail l] := rfl

@[simp] theorem raiseFail_stream (l : Line) (e : ErrInfos) (s : State) : (raiseFail l e s).stream = s.stream := rfl

@[simp] theorem raiseFail_accepted (l : Line) (e : ErrInfos) (s : State) : (raiseFail l e s).accepted = s.accepted := rfl

@[simp] theorem raiseFail_out (l : Line) (e : ErrInfos) (s : State) : (raiseFail l e s).out = s.out := rfl

@[simp] theorem raiseFail_host (l : Line) (e : ErrInfos) (s : State) : (raiseFail l e s).host = s.host := rfl

@[simp] theorem raiseFail_env (l : Line) (e : ErrInfos) (s : State) : (raiseFail l e s).env = s.env := rfl

@[simp] theorem raiseFail_envRest (l : Line) (e : ErrInfos) (s : State) : (raiseFail l e s).envRest = s.envRest := rfl

@[simp] theorem raiseFail_draws (l : Line) (e : ErrInfos) (s : State) : (raiseFail l e s).draws = s.draws := rfl

/-! ### delayUs -/

@[simp] theorem delayUs_rsQ (n : Nibble) (s : State) : (delayUs n s).rsQ = s.rsQ := rfl

@[simp] theorem delayUs_rwQ (n : Nibble) (s : State) : (delayUs n s).rwQ = s.rwQ := rfl

@[simp] theorem delayUs_enQ (n : Nibble) (s : State) : (delayUs n s).enQ = s.enQ := rfl

@[simp] theorem delayUs_dbQ (n : Nibble) (s : State) : (delayUs n s).dbQ = s.dbQ := rfl

@[simp] theorem delayUs_seq (n : Nibble) (s : State) : (delayUs n s).seq = s.seq := rfl

@[simp] theorem delayUs_cmdQ (n : Nibble) (s : State) : (delayUs n s).cmdQ = s.cmdQ := rfl

@[simp] theorem delayUs_loQ (n : Nibble) (s : State) : (delayUs n s).loQ = s.loQ := rfl

@[simp] theorem delayUs_hiQ (n : Nibble) (s : State) : (delayUs n s).hiQ = s.hiQ := rfl

@[simp] theorem delayUs_sr (n : Nibble) (s : State) : (delayUs n s).sr = s.sr := rfl

@[simp] theorem delayUs_res (n : Nibble) (s : State) : (delayUs n s).res = s.res := rfl

@[simp] theorem delayUs_tmr (n : Nibble) (s : State) : (delayUs n s).tmr = 0 := rfl

@[simp] theorem delayUs_trace (n : Nibble) (s : State) : (delayUs n s).trace = s.trace ++ [.delayUs n] := rfl

@[simp] theorem delayUs_stream (n : Nibble) (s : State) : (delayUs n s).stream = s.stream := rfl

@[simp] theorem delayUs_accepted (n : Nibble) (s : State) : (delayUs n s).accepted = s.accepted := rfl

@[simp] theorem delayUs_out (n : Nibble) (s : State) : (delayUs n s).out = s.out := rfl

@[simp] theorem delayUs_host (n : Nibble) (s : State) : (delayUs n s).host = s.host := rfl

@[simp] theorem delayUs_env (n : Nibble) (s : State) : (delayUs n s).env = s.env := rfl

@[simp] theorem delayUs_envRest (n : Nibble) (s : State) : (delayUs n s).envRest = s.envRest := rfl

@[simp] theorem delayUs_draws (n : Nibble) (s : State) : (delayUs n s).draws = s.draws := rfl

/-! ### startOp -/

@[simp] theorem startOp_rsQ (op : Op) (c : BitVec 10) (s : State) : (startOp op c s).rsQ = s.rsQ := rfl

@[simp] theorem startOp_rwQ (op : Op) (c : BitVec 10) (s : State) : (startOp op c s).rwQ = s.rwQ := rfl

@[simp] theorem startOp_enQ (op : Op) (c : BitVec 10) (s : State) : (startOp op c s).enQ = s.enQ := rfl

@[simp] theorem startOp_dbQ (op : Op) (c : BitVec 10) (s : State) : (startOp op c s).dbQ = s.dbQ := rfl

@[simp] theorem startOp_seq (op : Op) (c : BitVec 10) (s : State) : (startOp op c s).seq = .run op 0 := rfl

@[simp] theorem startOp_cmdQ (op : Op) (c : BitVec 10) (s : State) : (startOp op c s).cmdQ = c := rfl

@[simp] theorem startOp_loQ (op : Op) (c : BitVec 10) (s : State) : (startOp op c s).loQ = s.loQ := rfl

@[simp] theorem startOp_hiQ (op : Op) (c : BitVec 10) (s : State) : (startOp op c s).hiQ = s.hiQ := rfl

@[simp] theorem startOp_sr (op : Op) (c : BitVec 10) (s : State) : (startOp op c s).sr = s.sr := rfl

@[simp] theorem startOp_res (op : Op) (c : BitVec 10) (s : State) : (startOp op c s).res = s.res := rfl

@[simp] theorem startOp_tmr (op : Op) (c : BitVec 10) (s : State) : (startOp op c s).tmr = s.tmr := rfl

@[simp] theorem startOp_trace (op : Op) (c : BitVec 10) (s : State) : (startOp op c s).trace = s.trace := rfl

@[simp] theorem startOp_stream (op : Op) (c : BitVec 10) (s : State) : (startOp op c s).stream = s.stream := rfl

@[simp] theorem startOp_accepted (op : Op) (c : BitVec 10) (s : State) : (startOp op c s).accepted = s.accepted := rfl

@[simp] theorem startOp_out (op : Op) (c : BitVec 10) (s : State) : (startOp op c s).out = s.out := rfl

@[simp] theorem startOp_host (op : Op) (c : BitVec 10) (s : State) : (startOp op c s).host = s.host := rfl

@[simp] theorem startOp_env (op : Op) (c : BitVec 10) (s : State) : (startOp op c s).env = s.env := rfl

@[simp] theorem startOp_envRest (op : Op) (c : BitVec 10) (s : State) : (startOp op c s).envRest = s.envRest := rfl

@[simp] theorem startOp_draws (op : Op) (c : BitVec 10) (s : State) : (startOp op c s).draws = s.draws := rfl

/-! ### endStream -/

@[simp] theorem endStream_rsQ (r : Result) (k : Nat) (s : State) : (endStream r k s).rsQ = s.rsQ := rfl

@[simp] theorem endStream_rwQ (r : Result) (k : Nat) (s : State) : (endStream r k s).rwQ = s.rwQ := rfl

@[simp] theorem endStream_enQ (r : Result) (k : Nat) (s : State) : (endStream r k s).enQ = s.enQ := rfl

@[simp] theorem endStream_dbQ (r : Result) (k : Nat) (s : State) : (endStream r k s).dbQ = s.dbQ := rfl

@[simp] theorem endStream_seq (r : Result) (k : Nat) (s : State) : (endStream r k s).seq = s.seq := rfl

@[simp] theorem endStream_cmdQ (r : Result) (k : Nat) (s : State) : (endStream r k s).cmdQ = s.cmdQ := rfl

@[simp] theorem endStream_loQ (r : Result) (k : Nat) (s : State) : (endStream r k s).loQ = s.loQ := rfl

@[simp] theorem endStream_hiQ (r : Result) (k : Nat) (s : State) : (endStream r k s).hiQ = s.hiQ := rfl

@[simp] theorem endStream_sr (r : Result) (k : Nat) (s : State) : (endStream r k s).sr = s.sr := rfl

@[simp] theorem endStream_res (r : Result) (k : Nat) (s : State) : (endStream r k s).res = some r := rfl

@[simp] theorem endStream_tmr (r : Result) (k : Nat) (s : State) : (endStream r k s).tmr = s.tmr := rfl

@[simp] theorem endStream_trace (r : Result) (k : Nat) (s : State) : (endStream r k s).trace = s.trace := rfl

@[simp] theorem endStream_stream (r : Result) (k : Nat) (s : State) : (endStream r k s).stream = none := rfl

@[simp] theorem endStream_accepted (r : Result) (k : Nat) (s : State) : (endStream r k s).accepted = k := rfl

@[simp] theorem endStream_out (r : Result) (k : Nat) (s : State) : (endStream r k s).out = s.out := rfl

@[simp] theorem endStream_host (r : Result) (k : Nat) (s : State) : (endStream r k s).host = s.host := rfl

@[simp] theorem endStream_env (r : Result) (k : Nat) (s : State) : (endStream r k s).env = s.env := rfl

@[simp] theorem endStream_envRest (r : Result) (k : Nat) (s : State) : (endStream r k s).envRest = s.envRest := rfl

@[simp] theorem endStream_draws (r : Result) (k : Nat) (s : State) : (endStream r k s).draws = s.draws := rfl

/-! ### withMove -/

@[simp] theorem withMove_rsQ (r : Request) (s : State) : (withMove r s).rsQ = s.rsQ := rfl

@[simp] theorem withMove_rwQ (r : Request) (s : State) : (withMove r s).rwQ = s.rwQ := rfl

@[simp] theorem withMove_enQ (r : Request) (s : State) : (withMove r s).enQ = s.enQ := rfl

@[simp] theorem withMove_dbQ (r : Request) (s : State) : (withMove r s).dbQ = s.dbQ := rfl

@[simp] theorem withMove_seq (r : Request) (s : State) : (withMove r s).seq = .idle := rfl

@[simp] theorem withMove_cmdQ (r : Request) (s : State) : (withMove r s).cmdQ = s.cmdQ := rfl

@[simp] theorem withMove_loQ (r : Request) (s : State) : (withMove r s).loQ = s.loQ := rfl

@[simp] theorem withMove_hiQ (r : Request) (s : State) : (withMove r s).hiQ = s.hiQ := rfl

@[simp] theorem withMove_sr (r : Request) (s : State) : (withMove r s).sr = s.sr := rfl

@[simp] theorem withMove_res (r : Request) (s : State) : (withMove r s).res = s.res := rfl

@[simp] theorem withMove_tmr (r : Request) (s : State) : (withMove r s).tmr = s.tmr := rfl

@[simp] theorem withMove_trace (r : Request) (s : State) : (withMove r s).trace = s.trace := rfl

@[simp] theorem withMove_stream (r : Request) (s : State) : (withMove r s).stream = none := rfl

@[simp] theorem withMove_accepted (r : Request) (s : State) : (withMove r s).accepted = s.accepted := rfl

@[simp] theorem withMove_out (r : Request) (s : State) : (withMove r s).out = s.out := rfl

@[simp] theorem withMove_host (r : Request) (s : State) : (withMove r s).host = r :: s.host := rfl

@[simp] theorem withMove_env (r : Request) (s : State) : (withMove r s).env = s.env := rfl

@[simp] theorem withMove_envRest (r : Request) (s : State) : (withMove r s).envRest = s.envRest := rfl

@[simp] theorem withMove_draws (r : Request) (s : State) : (withMove r s).draws = s.draws := rfl

/-! ### atRow -/

@[simp] theorem atRow_rsQ (op : Op) (upc : BitVec 5) (s : State) : (atRow op upc s).rsQ = s.rsQ := by cases op <;> rfl

@[simp] theorem atRow_rwQ (op : Op) (upc : BitVec 5) (s : State) : (atRow op upc s).rwQ = s.rwQ := by cases op <;> rfl

@[simp] theorem atRow_enQ (op : Op) (upc : BitVec 5) (s : State) : (atRow op upc s).enQ = s.enQ := by cases op <;> rfl

@[simp] theorem atRow_dbQ (op : Op) (upc : BitVec 5) (s : State) : (atRow op upc s).dbQ = s.dbQ := by cases op <;> rfl

@[simp] theorem atRow_sr (op : Op) (upc : BitVec 5) (s : State) : (atRow op upc s).sr = s.sr := by cases op <;> rfl

@[simp] theorem atRow_res (op : Op) (upc : BitVec 5) (s : State) : (atRow op upc s).res = s.res := by cases op <;> rfl

@[simp] theorem atRow_tmr (op : Op) (upc : BitVec 5) (s : State) : (atRow op upc s).tmr = s.tmr := by cases op <;> rfl

@[simp] theorem atRow_trace (op : Op) (upc : BitVec 5) (s : State) : (atRow op upc s).trace = s.trace := by cases op <;> rfl

@[simp] theorem atRow_accepted (op : Op) (upc : BitVec 5) (s : State) : (atRow op upc s).accepted = s.accepted := by cases op <;> rfl

@[simp] theorem atRow_out (op : Op) (upc : BitVec 5) (s : State) : (atRow op upc s).out = s.out := by cases op <;> rfl

@[simp] theorem atRow_host (op : Op) (upc : BitVec 5) (s : State) : (atRow op upc s).host = s.host := by cases op <;> rfl

@[simp] theorem atRow_env (op : Op) (upc : BitVec 5) (s : State) : (atRow op upc s).env = s.env := by cases op <;> rfl

@[simp] theorem atRow_envRest (op : Op) (upc : BitVec 5) (s : State) : (atRow op upc s).envRest = s.envRest := by cases op <;> rfl

@[simp] theorem atRow_draws (op : Op) (upc : BitVec 5) (s : State) : (atRow op upc s).draws = s.draws := by cases op <;> rfl

@[simp] theorem atRow_seq (op : Op) (upc : BitVec 5) (s : State) : (atRow op upc s).seq = .run op upc := by cases op <;> rfl

@[simp] theorem atRow_cmdQ (op : Op) (upc : BitVec 5) (s : State) : (atRow op upc s).cmdQ = commandWord op := by cases op <;> rfl

@[simp] theorem atRow_stream (op : Op) (upc : BitVec 5) (s : State) : (atRow op upc s).stream = none := by cases op <;> rfl

@[simp] theorem atRow_write_loQ (kind : Kind) (b : Byte) (upc : BitVec 5) (s : State) :
    (atRow (.write kind b) upc s).loQ = lo4 b := rfl

@[simp] theorem atRow_write_hiQ (kind : Kind) (b : Byte) (upc : BitVec 5) (s : State) :
    (atRow (.write kind b) upc s).hiQ = hi4 b := rfl

/-! ### latchUnknown -/

@[simp] theorem latchUnknown_rsQ (l : Line) (s : State) :
    (latchUnknown l s).rsQ = if l = .rs then .U else s.rsQ := by
  cases l <;> rfl

@[simp] theorem latchUnknown_rwQ (l : Line) (s : State) :
    (latchUnknown l s).rwQ = if l = .rw then .U else s.rwQ := by
  cases l <;> rfl

@[simp] theorem latchUnknown_enQ (l : Line) (s : State) :
    (latchUnknown l s).enQ = if l = .en then .U else s.enQ := by
  cases l <;> rfl

@[simp] theorem latchUnknown_dbQ (l : Line) (s : State) :
    (latchUnknown l s).dbQ = if l = .bus then none else s.dbQ := by
  cases l <;> rfl

@[simp] theorem latchUnknown_seq (l : Line) (s : State) : (latchUnknown l s).seq = s.seq := by
  cases l <;> rfl

@[simp] theorem latchUnknown_cmdQ (l : Line) (s : State) : (latchUnknown l s).cmdQ = s.cmdQ := by
  cases l <;> rfl

@[simp] theorem latchUnknown_loQ (l : Line) (s : State) : (latchUnknown l s).loQ = s.loQ := by
  cases l <;> rfl

@[simp] theorem latchUnknown_hiQ (l : Line) (s : State) : (latchUnknown l s).hiQ = s.hiQ := by
  cases l <;> rfl

@[simp] theorem latchUnknown_sr (l : Line) (s : State) : (latchUnknown l s).sr = s.sr := by
  cases l <;> rfl

@[simp] theorem latchUnknown_res (l : Line) (s : State) : (latchUnknown l s).res = s.res := by
  cases l <;> rfl

@[simp] theorem latchUnknown_tmr (l : Line) (s : State) : (latchUnknown l s).tmr = s.tmr := by
  cases l <;> rfl

@[simp] theorem latchUnknown_trace (l : Line) (s : State) : (latchUnknown l s).trace = s.trace := by
  cases l <;> rfl

@[simp] theorem latchUnknown_stream (l : Line) (s : State) : (latchUnknown l s).stream = s.stream := by
  cases l <;> rfl

@[simp] theorem latchUnknown_accepted (l : Line) (s : State) : (latchUnknown l s).accepted = s.accepted := by
  cases l <;> rfl

@[simp] theorem latchUnknown_out (l : Line) (s : State) : (latchUnknown l s).out = s.out := by
  cases l <;> rfl

@[simp] theorem latchUnknown_host (l : Line) (s : State) : (latchUnknown l s).host = s.host := by
  cases l <;> rfl

@[simp] theorem latchUnknown_env (l : Line) (s : State) : (latchUnknown l s).env = s.env := by
  cases l <;> rfl

@[simp] theorem latchUnknown_envRest (l : Line) (s : State) : (latchUnknown l s).envRest = s.envRest := by
  cases l <;> rfl

@[simp] theorem latchUnknown_draws (l : Line) (s : State) : (latchUnknown l s).draws = s.draws := by
  cases l <;> rfl

end Sys2Proof.Machine
end

