-- ==== Sys2Proof/Laws/Ops.lean ====
section
/-! SUPPORT. One lemma per shared operation that says what it can do, to be cited instead of unfolding it. -/

namespace Sys2Proof.Machine

/-! ### The environment -/

/-- Drawing an answer moves every later one up by one place, in the script and past it. -/
@[simp] theorem answerOf_tail (env : List Answer) (r : Option Answer) (d k : Nat) :
    answerOf env.tail r (d + 1) k = answerOf env r d (k + 1) := by
  unfold answerOf
  cases env with
  | nil => cases r <;> simp [Nat.add_comm, Nat.add_left_comm]
  | cons a t => cases h : t[k]? <;> cases r <;> simp [h, Nat.add_comm, Nat.add_left_comm]

/-- Drawing `n` answers moves the later ones up by `n`. -/
@[simp] theorem answerOf_drop (env : List Answer) (r : Option Answer) (d n k : Nat) :
    answerOf (env.drop n) r (d + n) k = answerOf env r d (n + k) := by
  unfold answerOf
  simp only [List.getElem?_drop]
  cases env[n + k]? <;> cases r <;> simp [Nat.add_assoc]

/-- With the script run out, the lasting answer is every answer. -/
@[simp] theorem answerOf_lasting (a : Answer) (d k : Nat) : answerOf [] (some a) d k = a := rfl

theorem answerAt_eq (s : State) (k : Nat) : s.answerAt k = answerOf s.env s.envRest s.draws k := rfl

@[simp] theorem answerAt_drawn (s : State) (k : Nat) : s.drawn.answerAt k = s.answerAt (k + 1) := by
  simp [answerAt_eq]

@[simp] theorem answerAt_record (e : Event) (s : State) (k : Nat) : (s.record e).answerAt k = s.answerAt k := rfl

@[simp] theorem answerAt_delayUs (n : Nibble) (s : State) (k : Nat) : (delayUs n s).answerAt k = s.answerAt k := rfl

@[simp] theorem answerAt_startOp (op : Op) (c : BitVec 10) (s : State) (k : Nat) :
    (startOp op c s).answerAt k = s.answerAt k := rfl

@[simp] theorem answerAt_drawnBy (n : Nat) (s : State) (k : Nat) : (drawnBy n s).answerAt k = s.answerAt (n + k) := by
  simp [answerAt_eq]

/-- An answer depends on the script and the counter alone. -/
theorem answerAt_congr {s t : State} (he : s.env = t.env) (hr : s.envRest = t.envRest)
    (hd : s.draws = t.draws) (k : Nat) :
    s.answerAt k = t.answerAt k := by
  simp [answerAt_eq, he, hr, hd]

/-- A script in State gives the answers it lists. -/
theorem answerAt_of_env {s : State} {k : Nat} {a : Answer} (h : s.env[k]? = some a) : s.answerAt k = a := by
  simp [answerAt_eq, answerOf, h]

/-- Two answers drawn one after the other. -/
@[simp] theorem tail_tail {α : Type} (l : List α) : l.tail.tail = l.drop 2 := by
  cases l with
  | nil => rfl
  | cons a r => cases r <;> rfl

theorem drawnBy_zero (s : State) : drawnBy 0 s = s := rfl

theorem drawnBy_drawn (n : Nat) (s : State) : drawnBy n s.drawn = drawnBy (n + 1) s := by
  unfold drawnBy State.drawn
  simp [Nat.add_comm, Nat.add_left_comm]

/-! ### One action -/

theorem act_of_ok {e : Event} {l : Line} {w : State → State} {s : State} {v : Bus4} (h : s.answer = .ok v) :
    act e l w s = .done (w (s.record e).drawn) := by
  simp [act, h]

theorem act_of_err {e : Event} {l : Line} {w : State → State} {s : State} {x : ErrInfos} (h : s.answer = .err x) :
    act e l w s = .failed (raiseFail l x (latchUnknown l (s.record e).drawn)) := by
  simp [act, h]

theorem actBusRead_of_ok {s : State} {v : Bus4} (h : s.answer = .ok v) :
    actBusRead s = .done { (s.record (.busRead (nibbleOf v))).drawn with out := some (.nibble (nibbleOf v)) } := by
  simp [actBusRead, h]

theorem actBusRead_of_err {s : State} {x : ErrInfos} (h : s.answer = .err x) :
    actBusRead s = .failed (raiseFail .bus x (s.record (.busRead 0)).drawn) := by
  simp [actBusRead, h]

@[simp] theorem Acted.state_done (s : State) : (Acted.done s).state = s := rfl

@[simp] theorem Acted.state_failed (s : State) : (Acted.failed s).state = s := rfl

@[simp] theorem Acted.andThen_done (s : State) (f : State → Acted) : (Acted.done s).andThen f = f s := rfl

@[simp] theorem Acted.andThen_failed (s : State) (f : State → Acted) : (Acted.failed s).andThen f = .failed s := rfl

@[simp] theorem Acted.map_done (s : State) (f : State → State) : (Acted.done s).map f = .done (f s) := rfl

@[simp] theorem Acted.map_failed (s : State) (f : State → State) : (Acted.failed s).map f = .failed s := rfl

/-! ### Failures -/

@[simp] theorem failureOn_rs (e : ErrInfos) : failureOn .rs e = .rs e.rs := rfl

@[simp] theorem failureOn_rw (e : ErrInfos) : failureOn .rw e = .rw e.rw := rfl

@[simp] theorem failureOn_en (e : ErrInfos) : failureOn .en e = .en e.en := rfl

@[simp] theorem failureOn_bus (e : ErrInfos) : failureOn .bus e = .bus e.bus := rfl

/-- The failure of a line names that line. -/
@[simp] theorem failureLine_failureOn (l : Line) (e : ErrInfos) : failureLine (failureOn l e) = l := by
  cases l <;> rfl

/-- A primitive that `exec` carries through is followed by what `afterAction` says. -/
theorem runAction_of_next {m : Micro} {i : Instr} {s t : State} (h : exec i s = .next t) :
    runAction m i s = .next (afterAction m t) := by
  simp [runAction, h]

/-! ### Accepting a command -/

theorem ready_iff (s : State) : s.ready = true ↔ s.seq = .idle ∧ s.stream = none := by
  simp [State.ready]

theorem accept_of_ready {op : Op} {c : BitVec 10} {s : State} (h : s.ready = true) : accept op c s = startOp op c s := by
  simp [accept, h]

theorem accept_of_not_ready {op : Op} {c : BitVec 10} {s : State} (h : s.ready = false) : accept op c s = s := by
  simp [accept, h]

/-! ### What the host asks for in Idle -/

/-- An action is not performed for the host; anything else is run by `exec`. -/
theorem present_of_internal {i : Instr} (s : State) (h : internal i = true) : present i s = .refused (.internalAction i) := by
  simp [present, h]

theorem present_of_not_internal {i : Instr} (s : State) (h : internal i = false) : present i s = exec i s := by
  simp [present, h]

end Sys2Proof.Machine
end

