-- ==== Sys2Proof/Laws/PerInstr.lean ====
section
/-! SUPPORT. The family RowMatch: every word of an instruction's encoding lies under the row of spec/opcode_table.json the
instruction stands for: its format, its fixed bits, its width (30_encoding.md R93). -/

namespace Sys2Proof.Laws.RowMatch

/-- Every word the encoder gives `i` lies under the row of `i`. -/
def Statement (i : Instr) : Prop := ∀ c ∈ encode i, i.row.covers c = true

/-- The words of the data-write command lie under its row. -/
theorem data_word_covered (b : Byte) :
    (Row.mk .cmd10 0x200 0x300).covers (.ofCmd (writeWord .data b)) = true := by
  revert b; decide

theorem state (db : Byte) : Statement (.state db) := by
  have h : (encode (.state db)).all (Instr.state db).row.covers = true := by
    revert db; decide
  exact List.all_eq_true.1 h

theorem writeInstr (i : Byte) : Statement (.writeInstr i) := by
  have h : (encode (.writeInstr i)).all (Instr.writeInstr i).row.covers = true := by
    revert i; decide
  exact List.all_eq_true.1 h

theorem writeData (b : Byte) : Statement (.writeData b) := by
  intro c hc
  rw [List.mem_singleton.1 hc]
  exact data_word_covered b

theorem reservedDataRead (db : Byte) : Statement (.reservedDataRead db) := by
  have h : (encode (.reservedDataRead db)).all (Instr.reservedDataRead db).row.covers = true := by
    revert db; decide
  exact List.all_eq_true.1 h

theorem clearDisplay : Statement (.clearDisplay) := by
  have h : (encode (.clearDisplay)).all (Instr.clearDisplay).row.covers = true := by
    decide
  exact List.all_eq_true.1 h

theorem returnHome : Statement (.returnHome) := by
  have h : (encode (.returnHome)).all (Instr.returnHome).row.covers = true := by
    decide
  exact List.all_eq_true.1 h

theorem rsLow : Statement (.rsLow) := by
  have h : (encode (.rsLow)).all (Instr.rsLow).row.covers = true := by
    decide
  exact List.all_eq_true.1 h

theorem rsHigh : Statement (.rsHigh) := by
  have h : (encode (.rsHigh)).all (Instr.rsHigh).row.covers = true := by
    decide
  exact List.all_eq_true.1 h

theorem rwLow : Statement (.rwLow) := by
  have h : (encode (.rwLow)).all (Instr.rwLow).row.covers = true := by
    decide
  exact List.all_eq_true.1 h

theorem rwHigh : Statement (.rwHigh) := by
  have h : (encode (.rwHigh)).all (Instr.rwHigh).row.covers = true := by
    decide
  exact List.all_eq_true.1 h

theorem eLow : Statement (.eLow) := by
  have h : (encode (.eLow)).all (Instr.eLow).row.covers = true := by
    decide
  exact List.all_eq_true.1 h

theorem eHigh : Statement (.eHigh) := by
  have h : (encode (.eHigh)).all (Instr.eHigh).row.covers = true := by
    decide
  exact List.all_eq_true.1 h

theorem delayUs (n : Nibble) : Statement (.delayUs n) := by
  have h : (encode (.delayUs n)).all (Instr.delayUs n).row.covers = true := by
    revert n; decide
  exact List.all_eq_true.1 h

theorem busWrite (v : Nibble) : Statement (.busWrite v) := by
  have h : (encode (.busWrite v)).all (Instr.busWrite v).row.covers = true := by
    revert v; decide
  exact List.all_eq_true.1 h

theorem busRead (v : Nibble) : Statement (.busRead v) := by
  have h : (encode (.busRead v)).all (Instr.busRead v).row.covers = true := by
    revert v; decide
  exact List.all_eq_true.1 h

theorem fail (l : Line) : Statement (.fail l) := by
  have h : (encode (.fail l)).all (Instr.fail l).row.covers = true := by
    cases l <;> decide
  exact List.all_eq_true.1 h

theorem pulseEnable : Statement (.pulseEnable) := by
  have h : (encode (.pulseEnable)).all (Instr.pulseEnable).row.covers = true := by
    decide
  exact List.all_eq_true.1 h

theorem decodeStatus (v : Byte) : Statement (.decodeStatus v) := by
  have h : (encode (.decodeStatus v)).all (Instr.decodeStatus v).row.covers = true := by
    revert v; decide
  exact List.all_eq_true.1 h

theorem split (b : Byte) : Statement (.split b) := by
  have h : (encode (.split b)).all (Instr.split b).row.covers = true := by
    revert b; decide
  exact List.all_eq_true.1 h

theorem join (l h : Nibble) : Statement (.join l h) := by
  have h : (encode (.join l h)).all (Instr.join l h).row.covers = true := by
    revert l h; decide
  exact List.all_eq_true.1 h

theorem facadeState (db : Byte) : Statement (.facadeState db) := by
  have h : (encode (.facadeState db)).all (Instr.facadeState db).row.covers = true := by
    revert db; decide
  exact List.all_eq_true.1 h

theorem facadeWrite (kind : Kind) (b : Byte) : Statement (.facadeWrite kind b) := by
  have h : (encode (.facadeWrite kind b)).all (Instr.facadeWrite kind b).row.covers = true := by
    revert b; cases kind <;> decide
  exact List.all_eq_true.1 h

theorem writeByteBlocking (b : Byte) : Statement (.writeByteBlocking b) := by
  intro c hc
  rw [List.mem_singleton.1 hc]
  exact data_word_covered b

theorem writeBytes (bs : List Byte) : Statement (.writeBytes bs) := by
  intro c hc
  obtain ⟨b, _, rfl⟩ := List.mem_map.1 hc
  exact data_word_covered b

theorem writeChar (c : Nat) : Statement (.writeChar c) := by
  intro d hd
  rw [List.mem_singleton.1 hd]
  exact data_word_covered _

end Sys2Proof.Laws.RowMatch
end

