-- ==== Sys2Proof/Laws/Runs.lean ====
section
/-! SUPPORT. Runs of several steps: one more step, one run after another, a run to idle as a run; and the counts of a history
over its parts. -/

namespace Sys2Proof.Machine

/-! ### Runs -/

/-- A run takes its first step and goes on from there. -/
theorem run_next {s t : State} (n : Nat) (h : step s = .next t) :
    Sys2Proof.core.run (n + 1) s = Sys2Proof.core.run n t := by
  have e : Sys2Proof.core.step s = .next t := h
  simp only [Host.Core.run, e]

/-- A run stops at its first fault. -/
theorem run_fault {s : State} {r : Fault} (n : Nat) (h : step s = .fault r) :
    Sys2Proof.core.run (n + 1) s = .fault r := by
  have e : Sys2Proof.core.step s = .fault r := h
  simp only [Host.Core.run, e]

/-- A run stops at its first refusal. -/
theorem run_refused {s : State} {r : Refusal} (n : Nat) (h : step s = .refused r) :
    Sys2Proof.core.run (n + 1) s = .refused r := by
  have e : Sys2Proof.core.step s = .refused r := h
  simp only [Host.Core.run, e]

/-- Two runs one after the other are one run. -/
theorem run_add (n m : Nat) (s t : State) (h : Sys2Proof.core.run n s = .next t) :
    Sys2Proof.core.run (n + m) s = Sys2Proof.core.run m t := by
  induction n generalizing s with
  | zero => cases h; simp
  | succ n ih =>
    rw [Nat.add_right_comm]
    rcases hs : step s with u | r | r
    · rw [run_next _ hs] at h ⊢; exact ih u h
    · rw [run_fault _ hs] at h; cases h
    · rw [run_refused _ hs] at h; cases h

/-- A run to idle is a run of some number of steps. -/
theorem run_of_runToIdle (fuel : Nat) (s : State) : ∃ n, Sys2Proof.core.run n s = runToIdle fuel s := by
  induction fuel generalizing s with
  | zero => exact ⟨0, rfl⟩
  | succ fuel ih =>
    simp only [runToIdle]
    rcases s.seq with _ | _
    · exact ⟨0, rfl⟩
    all_goals
      rcases h : step s with t | r | r
      · obtain ⟨n, hn⟩ := ih t
        exact ⟨n + 1, (run_next n h).trans hn⟩
      · exact ⟨1, run_fault 0 h⟩
      · exact ⟨1, run_refused 0 h⟩

/-! ### Counts over a history's parts -/

theorem actions_append (a b : List Event) : actions (a ++ b) = actions a + actions b := List.countP_append

theorem busReads_append (a b : List Event) : busReads (a ++ b) = busReads a + busReads b := List.countP_append

theorem busWrites_append (a b : List Event) : busWrites (a ++ b) = busWrites a + busWrites b := List.countP_append

theorem delays_append (a b : List Event) : delays (a ++ b) = delays a + delays b := List.countP_append

theorem minMicros_append (a b : List Event) : minMicros (a ++ b) = minMicros a + minMicros b := by simp [minMicros]

theorem writtenNibbles_append (a b : List Event) : writtenNibbles (a ++ b) = writtenNibbles a ++ writtenNibbles b := by
  induction a with
  | nil => rfl
  | cons e a ih => cases e <;> simp [writtenNibbles, ih]

end Sys2Proof.Machine
end

