-- ==== Sys2Proof/Tests/Slice0.lean ====
section
/-! SUPPORT. The model's own tests. Expected values come from spec/30_encoding.md, spec/95_test_vectors.md (V-…) and the
rules named. The witnesses at the end show, for every statement with hypotheses, a state and operands that meet them. -/

namespace Sys2Proof.Machine.Tests

/-! ## Small states and readings -/

/-- The environment answers ok, a read getting these nibbles one after the other. -/
def okNibbles (vs : List Nibble) : List Answer := vs.map fun v => .ok (levelsOf v)

/-- Eight ok answers with the two reads of a poll: the fifth and the eighth. -/
def pollAnswers (l h : Nibble) : List Answer := okNibbles [0, 0, 0, 0, l, 0, 0, h]

/-- An error answer's values. -/
def errs : ErrInfos := ⟨.first, .first, .first, .first⟩

/-- The reset state with a script for the environment. -/
def withEnv (env : List Answer) : State := { State.reset with env := env }

/-- The reset state with `op` at step `upc` and a script. -/
def at_ (op : Op) (upc : BitVec 5) (env : List Answer) : State := { withEnv env with seq := .run op upc }

/-- The next state, where there is one. -/
def nextOf (o : Host.Outcome State Fault Refusal) : Option State :=
  match o with
  | .next t => some t
  | .fault _ => none
  | .refused _ => none

/-- The history of the next state, in bytes. -/
def historyOf (o : Host.Outcome State Fault Refusal) : Option (List Byte) := (nextOf o).map fun t => evt8s t.trace

/-! ## The well-formedness check (V-Z2, 44_instruction_table.md R169, 93_implementation_defined.md U17) -/

theorem test_check_refuses_write : (Instr.writeInstr 0x55).check [0x01, 0x02] = .error (.notInInstrSet 0x55) := by rfl

theorem test_check_accepts_write : (Instr.writeInstr 0x01).check [0x01, 0x02] = .ok () := by rfl

theorem test_check_refuses_facade_write :
    (Instr.facadeWrite .instr 0x55).check [0x01, 0x02] = .error (.notInInstrSet 0x55) := by rfl

theorem test_check_accepts_data : (Instr.facadeWrite .data 0x55).check [0x01, 0x02] = .ok () := by rfl

theorem test_check_refuses_clear : Instr.clearDisplay.check [0x02] = .error (.notInInstrSet 0x01) := by rfl

theorem test_check_refuses_home : Instr.returnHome.check [0x01] = .error (.notInInstrSet 0x02) := by rfl

theorem test_check_refuses_wide : (Instr.writeChar 256).check [] = .error (.wideCharacter 256) := by rfl

theorem test_check_accepts_char : (Instr.writeChar 255).check [] = .ok () := by rfl

/-! ## Decoding, by words written out bit by bit from 30_encoding.md -/

/-- R77. -/
theorem test_decode_state : decode .cmd10 0b0100000000 = .ok (.state 0x00) := by rfl

/-- V-C. -/
theorem test_decode_state_2 : decode .cmd10 0b0111111111 = .ok (.state 0xFF) := by rfl

/-- V-C. -/
theorem test_decode_writeInstr : decode .cmd10 0b0000000001 = .ok (.writeInstr 0x01) := by rfl

/-- V-C. -/
theorem test_decode_writeInstr_2 : decode .cmd10 0b0011111111 = .ok (.writeInstr 0xFF) := by rfl

/-- V-C. -/
theorem test_decode_writeData : decode .cmd10 0b1001000001 = .ok (.writeData 0x41) := by rfl

/-- V-C. -/
theorem test_decode_reservedDataRead : decode .cmd10 0b1101000001 = .ok (.reservedDataRead 0x41) := by rfl

/-- R87. -/
theorem test_decode_clearDisplay : decode .lcdi8 0b00000001 = .ok .clearDisplay := by rfl

/-- R87. -/
theorem test_decode_returnHome : decode .lcdi8 0b00000010 = .ok .returnHome := by rfl

/-- R85. -/
theorem test_decode_rsLow : decode .evt8 0b00000000 = .ok .rsLow := by rfl

/-- R85. -/
theorem test_decode_rsHigh : decode .evt8 0b00010000 = .ok .rsHigh := by rfl

/-- R85. -/
theorem test_decode_rwLow : decode .evt8 0b00100000 = .ok .rwLow := by rfl

/-- R85. -/
theorem test_decode_rwHigh : decode .evt8 0b00110000 = .ok .rwHigh := by rfl

/-- R85. -/
theorem test_decode_eLow : decode .evt8 0b01000000 = .ok .eLow := by rfl

/-- R85. -/
theorem test_decode_eHigh : decode .evt8 0b01010000 = .ok .eHigh := by rfl

/-- R85. -/
theorem test_decode_delayUs : decode .evt8 0b01100001 = .ok (.delayUs 1) := by rfl

/-- R85. -/
theorem test_decode_busWrite : decode .evt8 0b01110101 = .ok (.busWrite 0x5) := by rfl

/-- R85. -/
theorem test_decode_busRead : decode .evt8 0b10001010 = .ok (.busRead 0xA) := by rfl

/-- R85, R86. -/
theorem test_decode_fail : decode .evt8 0b11110010 = .ok (.fail .en) := by rfl

/-- R110. -/
theorem test_decode_pulseEnable : decode .evt8x4 0b01010000011000010100000001100001 = .ok .pulseEnable := by rfl

/-- R81. -/
theorem test_decode_decodeStatus : decode .status8 0b10101010 = .ok (.decodeStatus 0xAA) := by rfl

/-- R82. -/
theorem test_decode_split : decode .split8 0b01000001 = .ok (.split 0x41) := by rfl

/-- R83, V-S. -/
theorem test_decode_join : decode .join8 0b00101010 = .ok (.join 0xA 0x2) := by rfl

/-- R75, R85, R88, R110. -/
theorem test_decode_too_wide : decode .cmd10 0x400 = .error .tooWide := by rfl

/-- R75, R85, R88, R110. -/
theorem test_decode_unused_code : decode .evt8 0x90 = .error .unusedEvent := by rfl

/-- R75, R85, R88, R110. -/
theorem test_decode_unused_argument : decode .evt8 0x01 = .error .unusedEvent := by rfl

/-- R75, R85, R88, R110. -/
theorem test_decode_unused_line : decode .evt8 0xF4 = .error .unusedEvent := by rfl

/-- R75, R85, R88, R110. -/
theorem test_decode_not_one_pulse : decode .evt8x4 0x50614062 = .error .notOnePulse := by rfl

/-- The words of the facade's rows, whose decoding is the command's (R91, R93, V-C, V-X). -/
theorem test_facade_words :
    encode (.facadeState 0) = [⟨.cmd10, 0x100⟩] ∧ encode (.facadeWrite .instr 0x01) = [⟨.cmd10, 0x001⟩] ∧
    encode (.facadeWrite .data 0x41) = [⟨.cmd10, 0x241⟩] ∧ encode (.writeByteBlocking 0x48) = [⟨.cmd10, 0x248⟩] ∧
    encode (.writeBytes [0x48, 0x69]) = [⟨.cmd10, 0x248⟩, ⟨.cmd10, 0x269⟩] ∧
    encode (.writeChar 0x41) = [⟨.cmd10, 0x241⟩] := by decide

/-! ## Bytes, flags and results (V-D, V-S, V-B, V-R) -/

theorem test_decode_status :
    decodeStatus 0x7F = ⟨false, 0x7F⟩ ∧ decodeStatus 0x80 = ⟨true, 0x00⟩ ∧ decodeStatus 0xD5 = ⟨true, 0x55⟩ := by decide

theorem test_encode_status : encodeStatus ⟨true, 0x2A⟩ = 0xAA := by decide

theorem test_split : lo4 0x5A = 0xA ∧ hi4 0x5A = 0x5 := by decide

theorem test_join : join 0xA 0x2 = 0x2A ∧ join 0x2 0xA = 0xA2 := by decide

theorem test_bus_levels :
    levelsOf 0x1 = ⟨.high, .low, .low, .low⟩ ∧ levelsOf 0x8 = ⟨.low, .low, .low, .high⟩ ∧
    levelsOf 0x5 = ⟨.high, .low, .high, .low⟩ := by decide

theorem test_result_words :
    (Result.successStatus 0xAA).res12 = 0x0AA ∧ Result.retryLater.res12 = 0x400 ∧
    (Result.failed (.rw .first)).res12 = 0x900 ∧ (Result.failed (.bus .first)).res12 = 0xB00 := by decide

theorem test_exec_split : (nextOf (exec (.split 0x41) State.reset)).map (·.out) = some (some (.pair 0x1 0x4)) := by decide

theorem test_exec_join : (nextOf (exec (.join 0xA 0x2) State.reset)).map (·.out) = some (some (.byte 0x2A)) := by decide

theorem test_exec_decode_status :
    (nextOf (exec (.decodeStatus 0xAA) State.reset)).map (·.out) = some (some (.status ⟨true, 0x2A⟩)) := by decide

/-! ## The primitives (R101 to R109) and the pulse (V-P) -/

/-- One ok answer. -/
def okOnce : State := withEnv (okNibbles [0xA])

/-- One error. -/
def errOnce : State := withEnv [.err errs]

theorem test_rs_low : (nextOf (exec .rsLow okOnce)).map (fun t => (t.rsQ, evt8s t.trace)) = some (.L, [0x00]) := by decide

theorem test_rs_high : (nextOf (exec .rsHigh okOnce)).map (fun t => (t.rsQ, evt8s t.trace)) = some (.H, [0x10]) := by decide

theorem test_rw_low : (nextOf (exec .rwLow okOnce)).map (fun t => (t.rwQ, evt8s t.trace)) = some (.L, [0x20]) := by decide

theorem test_rw_high : (nextOf (exec .rwHigh okOnce)).map (fun t => (t.rwQ, evt8s t.trace)) = some (.H, [0x30]) := by decide

theorem test_e_low : (nextOf (exec .eLow okOnce)).map (fun t => (t.enQ, evt8s t.trace)) = some (.L, [0x40]) := by decide

theorem test_e_high : (nextOf (exec .eHigh okOnce)).map (fun t => (t.enQ, evt8s t.trace)) = some (.H, [0x50]) := by decide

/-- V-SF0's first action: the failure's line, marker and result. -/
theorem test_rs_low_fails :
    (nextOf (exec .rsLow errOnce)).map (fun t => (t.rsQ, evt8s t.trace, t.res)) =
      some (.U, [0x00, 0xF0], some (.failed (.rs .first))) := by decide

theorem test_rw_high_fails :
    (nextOf (exec .rwHigh errOnce)).map (fun t => (t.rwQ, evt8s t.trace, t.res)) =
      some (.U, [0x30, 0xF1], some (.failed (.rw .first))) := by decide

theorem test_bus_write : (nextOf (exec (.busWrite 5) okOnce)).map (fun t => (t.dbQ, evt8s t.trace)) = some (some 5, [0x75]) := by
  decide

theorem test_bus_write_fails :
    (nextOf (exec (.busWrite 5) { errOnce with dbQ := some 3 })).map (fun t => (t.dbQ, evt8s t.trace)) =
      some (none, [0x75, 0xF3]) := by decide

theorem test_bus_read :
    (nextOf (exec (.busRead 0) okOnce)).map (fun t => (t.out, evt8s t.trace)) = some (some (.nibble 0xA), [0x8A]) := by decide

/-- The failed read of V-SF4 records 0; the data latch stands (R22). -/
theorem test_bus_read_fails :
    (nextOf (exec (.busRead 9) { errOnce with dbQ := some 3 })).map (fun t => (t.dbQ, evt8s t.trace)) =
      some (some 3, [0x80, 0xF3]) := by decide

theorem test_delay : (nextOf (exec (.delayUs 1) errOnce)).map (fun t => (t.res, t.draws, evt8s t.trace)) = some (none, 0, [0x61]) := by
  decide

theorem test_fail : (nextOf (exec (.fail .en) okOnce)).map (fun t => (t.enQ, t.seq, evt8s t.trace)) = some (.U, .idle, [0xF2]) := by
  decide

/-- V-P4: the whole pulse, whatever `en_q` was. -/
theorem test_pulse : (nextOf (exec .pulseEnable { withEnv (okNibbles [0, 0]) with enQ := .H })).map
    (fun t => (t.enQ, t.res, evt8s t.trace)) = some (.L, none, [0x50, 0x61, 0x40, 0x61]) := by decide

/-- V-P2: neither delay and no E_LOW after a failed E_HIGH. -/
theorem test_pulse_fails : (nextOf (exec .pulseEnable errOnce)).map (fun t => (t.enQ, t.seq, evt8s t.trace)) =
    some (.U, .idle, [0x50, 0xF2]) := by decide

/-- R26: an action asked of the idle engine is not performed. -/
theorem test_idle_performs_no_action :
    step { State.reset with host := [.call .rsLow] } = .refused (.internalAction .rsLow) ∧
    step { State.reset with host := [.code ⟨.evt8x4, 0x50614061⟩] } = .refused (.internalAction .pulseEnable) := by
  exact ⟨rfl, rfl⟩

/-- A primitive placed as the next instruction is the next step's action. -/
theorem test_placed_primitive :
    (nextOf (step ({ okOnce with dbQ := none }.withFetchWord 8 0x75))).map (fun t => (t.dbQ, evt8s t.trace)) =
      some (some 5, [0x75]) := by decide

/-! ## The commands and the facade -/

theorem test_state_starts :
    (nextOf (exec (.state 0xFF) State.reset)).map (fun t => (t.seq, t.cmdQ)) = some (.run .state 0, 0x1FF) := by decide

theorem test_write_instr_starts :
    (nextOf (exec (.writeInstr 0x55) State.reset)).map (fun t => (t.seq, t.cmdQ)) = some (.run (.write .instr 0x55) 0, 0x055) := by
  decide

theorem test_write_data_starts :
    (nextOf (exec (.writeData 0x41) State.reset)).map (fun t => (t.seq, t.cmdQ)) = some (.run (.write .data 0x41) 0, 0x241) := by
  decide

theorem test_clear_starts :
    (nextOf (exec .clearDisplay State.reset)).map (fun t => (t.seq, t.cmdQ)) = some (.run (.write .instr 0x01) 0, 0x001) := by decide

theorem test_home_starts :
    (nextOf (exec .returnHome State.reset)).map (fun t => (t.seq, t.cmdQ)) = some (.run (.write .instr 0x02) 0, 0x002) := by decide

/-- V-Z3: not accepted, not stored. -/
theorem test_busy_engine_takes_no_command :
    nextOf (exec (.writeData 0x41) (at_ .state 3 [])) = some (at_ .state 3 []) := by decide

/-- V-Z1, as a word on the command port. -/
theorem test_reserved_refused : step (State.reset.withFetchWord 16 0x341) = .refused .reservedDataRead := by rfl

theorem test_facade_state :
    (nextOf (exec (.facadeState 0) State.reset)).map (fun t => (t.seq, t.cmdQ)) = some (.run .state 0, 0x100) := by decide

theorem test_facade_write :
    (nextOf (exec (.facadeWrite .data 0x41) State.reset)).map (fun t => (t.seq, t.cmdQ)) =
      some (.run (.write .data 0x41) 0, 0x241) := by decide

theorem test_write_byte_blocking :
    (nextOf (exec (.writeByteBlocking 0x48) State.reset)).map (fun t => (t.seq, t.cmdQ, t.stream)) =
      some (.run (.write .data 0x48) 0, 0x248, some ⟨[0x48], 0⟩) := by decide

theorem test_write_bytes :
    (nextOf (exec (.writeBytes [0x48, 0x69]) State.reset)).map (fun t => (t.seq, t.cmdQ)) =
      some (.run (.write .data 0x48) 0, 0x248) := by decide

/-- V-X5. -/
theorem test_write_no_bytes :
    (nextOf (exec (.writeBytes []) State.reset)).map (fun t => (t.seq, t.res, t.accepted, t.trace)) =
      some (.idle, some .success, 0, []) := by decide

theorem test_write_char :
    (nextOf (exec (.writeChar 0x41) State.reset)).map (fun t => (t.seq, t.cmdQ)) = some (.run (.write .data 0x41) 0, 0x241) := by
  decide

/-- V-Z3 for a character. -/
theorem test_write_char_not_ready :
    nextOf (exec (.writeChar 0x41) (at_ .state 3 [])) = some (at_ .state 3 []) := by decide

theorem test_write_wide_char : exec (.writeChar 300) State.reset = .refused (.wideCharacter 300) := by rfl

/-! ## One step of the sequencer and of the stream -/

/-- Step 6 of V-ST7: the first nibble goes to the low latch. -/
theorem test_step_reads_low :
    (nextOf (step (at_ .state 6 (okNibbles [0x2])))).map (fun t => (t.loQ, t.hiQ, t.seq)) = some (2, 0, .run .state 7) := by decide

/-- Step 12 of V-ST6: reads A, 2 give 0x2A. -/
theorem test_step_assembles :
    (nextOf (step { at_ .state 12 [] with loQ := 0xA, hiQ := 0x2 })).map (fun t => (t.seq, t.res)) =
      some (.idle, some (.successStatus 0x2A)) := by decide

/-- Step 12 of V-W4 (0x80 is busy) and of V-W5 (0x7F is not, and the operand is split). -/
theorem test_step_tests_busy :
    (nextOf (step { at_ (.write .data 0x41) 12 [] with loQ := 0x0, hiQ := 0x8 })).map (fun t => (t.seq, t.res)) =
      some (.idle, some .retryLater) ∧
    (nextOf (step { at_ (.write .data 0x41) 12 [] with loQ := 0xF, hiQ := 0x7 })).map (fun t => (t.seq, t.loQ, t.hiQ)) =
      some (.run (.write .data 0x41) 13, 0x1, 0x4) := by decide

/-- Step 13 of V-W1 and V-W3: RS low for an instruction, high for data. -/
theorem test_step_selects_register :
    historyOf (step (at_ (.write .instr 0x01) 13 (okNibbles [0]))) = some [0x00] ∧
    historyOf (step (at_ (.write .data 0x41) 13 (okNibbles [0]))) = some [0x10] := by decide

/-- Step 20 of V-F6: the failed write of the high nibble. -/
theorem test_step_fails :
    (nextOf (step { at_ (.write .data 0xA5) 20 [.err errs] with loQ := 0x5, hiQ := 0xA, dbQ := some 5 })).map
      (fun t => (t.seq, t.dbQ, t.res, evt8s t.trace)) =
      some (.idle, none, some (.failed (.bus .first)), [0x7A, 0xF3]) := by decide

/-- Step 25. -/
theorem test_step_succeeds :
    (nextOf (step (at_ (.write .data 0x41) 25 []))).map (fun t => (t.seq, t.res)) = some (.idle, some .success) := by decide

/-- V-X4: the second byte fails, one byte accepted. -/
theorem test_stream_stops_at_failure :
    (nextOf (step { State.reset with stream := some ⟨[0x48, 0x69], 1⟩, res := some (.failed (.bus .first)) })).map
      (fun t => (t.stream, t.accepted, t.res)) = some (none, 1, some (.failed (.bus .first))) := by decide

/-- V-X1: the same byte again at once. -/
theorem test_stream_retries :
    (nextOf (step { State.reset with stream := some ⟨[0x48], 0⟩, res := some .retryLater })).map (fun t => (t.seq, t.cmdQ)) =
      some (.run (.write .data 0x48) 0, 0x248) := by decide

/-- A NEW on the host's list (R145, R208). -/
theorem test_new :
    (nextOf (step { State.reset with host := [.new], enQ := .L, trace := [.eLow] })).map (fun t => (t.enQ, t.trace, t.host)) =
      some (.U, [], []) := by decide

/-- The listings against the vectors: V-ST6, V-W1, V-W4, V-F4. -/
theorem test_state_listing :
    evt8s (stateProc (withEnv (pollAnswers 0xA 0x2))).trace =
      [0x00, 0x30, 0x50, 0x61, 0x40, 0x61, 0x8A, 0x50, 0x61, 0x40, 0x61, 0x82] := by decide

theorem test_write_listing :
    evt8s (writeProc .instr 0x01 (withEnv (pollAnswers 0 0 ++ okNibbles [0, 0, 0, 0, 0, 0, 0, 0]))).trace =
      [0x00, 0x30, 0x50, 0x61, 0x40, 0x61, 0x80, 0x50, 0x61, 0x40, 0x61, 0x80] ++
      [0x00, 0x20, 0x71, 0x50, 0x61, 0x40, 0x61, 0x70, 0x50, 0x61, 0x40, 0x61] := by decide

theorem test_failed_write_listing :
    evt8s (writeProc .data 0xA5 (withEnv (pollAnswers 0 0 ++ okNibbles [0, 0, 0] ++ [.err errs]))).trace =
      [0x00, 0x30, 0x50, 0x61, 0x40, 0x61, 0x80, 0x50, 0x61, 0x40, 0x61, 0x80] ++ [0x10, 0x20, 0x75, 0x50, 0xF2] := by decide

/-! ## Witnesses: the hypotheses of every statement can be met -/

/-- A script of ok answers answers ok as long as it lasts. -/
theorem okFor_script (vs : List Nibble) (s : State) (h : s.env = okNibbles vs) : okFor vs.length s := by
  intro k hk
  exact ⟨levelsOf vs[k], answerAt_of_env (by simp [h, okNibbles, hk])⟩

/-- A script of ok answers before an error. -/
theorem okFor_script_err (vs : List Nibble) (rest : List Answer) (s : State) (h : s.env = okNibbles vs ++ rest) :
    okFor vs.length s := by
  intro k hk
  exact ⟨levelsOf vs[k], answerAt_of_env (by simp [h, okNibbles, hk, List.getElem?_append])⟩

/-- A running state outside a stream is consistent if it is right at its step. -/
theorem consistent_of_run {s : State} {op : Op} {upc : BitVec 5} (hr : s.seq = .run op upc) (hs : s.stream = none)
    (h : AtStep op upc.toNat s) : Consistent s := by
  refine ⟨fun o u e => ?_, fun st e => ?_⟩
  · rw [hr] at e; cases e; exact h
  · rw [hs] at e; cases e

/-- Not busy, everything ok: sixteen answers whose poll reads `l`, `h`. -/
def quiet (l h : Nibble) : State := withEnv (okNibbles [0, 0, 0, 0, l, 0, 0, h, 0, 0, 0, 0, 0, 0, 0, 0])

theorem quiet_ok (l h : Nibble) : okFor 16 (quiet l h) :=
  okFor_script [0, 0, 0, 0, l, 0, 0, h, 0, 0, 0, 0, 0, 0, 0, 0] _ rfl

/-- SpecWordsDecode, HistoryBytesRoundTrip: both ends of the range. -/
theorem witness_unused_bytes :
    (0x90 ≤ (0x90#8 : Byte).toNat ∧ (0x90#8 : Byte).toNat < 0xF0) ∧ (0x90 ≤ (0xEF#8 : Byte).toNat ∧ (0xEF#8 : Byte).toNat < 0xF0) := by
  decide

/-- DecodeOfEncode's second clause. -/
theorem witness_DecodeOfEncode : Instr.clearDisplay.isPseudo = false := by rfl

/-- EncodeOfDecode: an instruction byte, and a word of another format. -/
theorem witness_EncodeOfDecode :
    (decode .lcdi8 1 = .ok .clearDisplay ∧ (Format.lcdi8 = .lcdi8 → 1 = 1 ∨ 1 = 2)) ∧
    (decode .cmd10 0x3FF = .ok (.reservedDataRead 0xFF) ∧ (Format.cmd10 = .lcdi8 → 0x3FF = 1 ∨ 0x3FF = 2)) := by
  exact ⟨⟨rfl, fun _ => Or.inl rfl⟩, rfl, fun h => nomatch h⟩

/-- CommandWordsPartition: the two ends of each quarter. -/
theorem witness_CommandWordsPartition :
    (0x0FF#10).toNat < 0x100 ∧ (0x100 ≤ (0x100#10).toNat ∧ (0x1FF#10).toNat < 0x200) ∧
    (0x200 ≤ (0x200#10).toNat ∧ (0x2FF#10).toNat < 0x300) ∧ 0x300 ≤ (0x300#10).toNat := by decide

/-- RsActions, RwActions, EnableActions, BusWriteAction, BusReadAction: an answer ok and an error. -/
theorem witness_actions : okOnce.answer = .ok (levelsOf 0xA) ∧ errOnce.answer = .err errs := by exact ⟨rfl, rfl⟩

/-- DelayOnlyRecords: an argument no step table has, and a step that records a delay. -/
theorem witness_DelayOnlyRecords :
    (0#4 : Nibble) ≠ 1 ∧
    (∃ t, step (at_ .state 3 []) = .next t ∧ gained (at_ .state 3 []) t [.delayUs 1] ∧
      ((at_ .state 3 []).seq = .idle → (at_ .state 3 []).stream = none → (at_ .state 3 []).host.head? ≠ some .new)) :=
  ⟨by decide, _, rfl, rfl, fun h => nomatch h⟩

/-- EnablePulse: the three cases, and the first and the last row a pulse starts at. -/
theorem witness_EnablePulse :
    ((at_ .state 2 []).seq = .run .state 2 ∧ (2#5).toNat ∈ rowsOf .eHigh .state) ∧
    ((at_ (.write .data 0x41) 21 []).seq = .run (.write .data 0x41) 21 ∧ (21#5).toNat ∈ rowsOf .eHigh (.write .data 0x41)) ∧
    ((withEnv (okNibbles [0, 0])).answerAt 0 = .ok (levelsOf 0) ∧ (withEnv (okNibbles [0, 0])).answerAt 1 = .ok (levelsOf 0)) ∧
    errOnce.answerAt 0 = .err errs ∧
    ((withEnv (okNibbles [0] ++ [.err errs])).answerAt 0 = .ok (levelsOf 0) ∧
      (withEnv (okNibbles [0] ++ [.err errs])).answerAt 1 = .err errs) := by
  exact ⟨⟨rfl, by decide⟩, ⟨rfl, by decide⟩, ⟨rfl, rfl⟩, rfl, rfl, rfl⟩

/-- CommandsAccepted, InstrSetCheckedOutsideTheMachine, FacadePassesThrough, StreamOpens: a machine that is
ready; and two that are not, one with an operation running and one in a stream. -/
theorem witness_ready :
    State.reset.ready = true ∧ (at_ .state 0 []).ready = false ∧
    State.ready { State.reset with stream := some ⟨[0x48], 0⟩ } = false := by decide

/-- ReservedCommandRefused: the ends of the reserved quarter. -/
theorem witness_ReservedCommandRefused : (0x300 ≤ 0x300 ∧ 0x300 < 0x400) ∧ (0x300 ≤ 0x3FF ∧ 0x3FF < 0x400) := by decide

/-- InstrSetCheckedOutsideTheMachine: a byte outside a set. -/
theorem witness_InstrSet : (0x55#8 : Byte) ∉ [0x01#8, 0x02#8] := by decide

/-- StatePollCompletes. -/
theorem witness_StatePollCompletes : (withEnv (pollAnswers 0xA 0x2)).ready = true ∧ okFor 8 (withEnv (pollAnswers 0xA 0x2)) :=
  ⟨rfl, okFor_script [0, 0, 0, 0, 0xA, 0, 0, 0x2] _ rfl⟩

/-- BusyWriteRetriesLater, at the boundary 0x80. -/
theorem witness_BusyWriteRetriesLater :
    (withEnv (pollAnswers 0x0 0x8)).ready = true ∧ okFor 8 (withEnv (pollAnswers 0x0 0x8)) ∧
    0x80 ≤ (polledByte (withEnv (pollAnswers 0x0 0x8))).toNat :=
  ⟨rfl, okFor_script [0, 0, 0, 0, 0x0, 0, 0, 0x8] _ rfl, by decide⟩

/-- WriteTransfersByte, NamedInstructionsTransfer, at the boundary 0x7F; CharGoesOutAsOneByte with the largest byte. -/
theorem witness_WriteTransfersByte :
    (quiet 0xF 0x7).ready = true ∧ okFor 16 (quiet 0xF 0x7) ∧ (polledByte (quiet 0xF 0x7)).toNat < 0x80 ∧ 255 < 256 :=
  ⟨rfl, quiet_ok _ _, by decide, by decide⟩

/-- PollFailureTable and the first half of WriteFailureTable, at the first and the last place. -/
theorem witness_PollFailureTable :
    (okFor 0 errOnce ∧ errOnce.answerAt 0 = .err errs) ∧
    (okFor 7 (withEnv (okNibbles [0, 0, 0, 0, 0xA, 0, 0] ++ [.err errs])) ∧
      (withEnv (okNibbles [0, 0, 0, 0, 0xA, 0, 0] ++ [.err errs])).answerAt 7 = .err errs) :=
  ⟨⟨fun _ h => absurd h (Nat.not_lt_zero _), rfl⟩, okFor_script_err [0, 0, 0, 0, 0xA, 0, 0] [.err errs] _ rfl, rfl⟩

/-- The second half of WriteFailureTable, at the first and the last place. -/
theorem witness_WriteFailureTable :
    (okFor 8 (withEnv (pollAnswers 0 0 ++ [.err errs])) ∧ busyFlag (polledByte (withEnv (pollAnswers 0 0 ++ [.err errs]))) = false ∧
      (withEnv (pollAnswers 0 0 ++ [.err errs])).answerAt 8 = .err errs) ∧
    (okFor 15 (withEnv (okNibbles [0, 0, 0, 0, 0xF, 0, 0, 0x7, 0, 0, 0, 0, 0, 0, 0] ++ [.err errs])) ∧
      busyFlag (polledByte (withEnv (okNibbles [0, 0, 0, 0, 0xF, 0, 0, 0x7, 0, 0, 0, 0, 0, 0, 0] ++ [.err errs]))) = false ∧
      (withEnv (okNibbles [0, 0, 0, 0, 0xF, 0, 0, 0x7, 0, 0, 0, 0, 0, 0, 0] ++ [.err errs])).answerAt 15 = .err errs) :=
  ⟨⟨okFor_script_err [0, 0, 0, 0, 0, 0, 0, 0] [.err errs] _ rfl, by decide, rfl⟩,
    okFor_script_err [0, 0, 0, 0, 0xF, 0, 0, 0x7, 0, 0, 0, 0, 0, 0, 0] [.err errs] _ rfl, by decide, rfl⟩

/-- HistoryBytesRoundTrip, last clause: a list that holds such a byte. -/
theorem witness_unread_bytes : (0x90#8 : Byte) ∈ [0x00#8, 0x90#8] := by decide

/-- StreamOpens: the least wide character, and the greatest that is none. -/
theorem witness_StreamOpens : 256 ≤ 256 ∧ 255 < 256 := by decide

/-- A stream at byte `k` of two, with a result. -/
def inStream (k : Nat) (r : Result) : State := { State.reset with stream := some ⟨[0x48, 0x69], k⟩, res := some r }

/-- StreamTurns, each clause; the third at the last byte. -/
theorem witness_StreamTurns :
    (inStream 0 .retryLater).seq = .idle ∧ (inStream 0 .retryLater).stream = some ⟨[0x48, 0x69], 0⟩ ∧
    (inStream 0 .retryLater).res = some .retryLater ∧
    ((inStream 0 .success).res = some .success ∧ 0 + 1 < [0x48#8, 0x69#8].length) ∧
    ((inStream 1 .success).stream = some ⟨[0x48, 0x69], 1⟩ ∧ (inStream 1 .success).res = some .success ∧
      1 + 1 = [0x48#8, 0x69#8].length) ∧
    (inStream 1 (.failed (.bus .first))).res = some (.failed (.bus .first)) := by decide

/-- BlockingByteRetriesUntilAccepted: busy once (V-X1). -/
def busyOnce : State := withEnv (okNibbles [0, 0, 0, 0, 0, 0, 0, 8, 0, 0, 0, 0, 0, 0, 0, 0, 0, 0, 0, 0, 0, 0, 0, 0])

theorem witness_BlockingByteRetriesUntilAccepted :
    busyOnce.ready = true ∧ okFor (8 * 1 + 16) busyOnce ∧
    (∀ j, j < 1 → busyFlag (join (nibbleAt busyOnce (8 * j + 4)) (nibbleAt busyOnce (8 * j + 7))) = true) ∧
    busyFlag (join (nibbleAt busyOnce (8 * 1 + 4)) (nibbleAt busyOnce (8 * 1 + 7))) = false := by
  refine ⟨rfl, okFor_script [0, 0, 0, 0, 0, 0, 0, 8, 0, 0, 0, 0, 0, 0, 0, 0, 0, 0, 0, 0, 0, 0, 0, 0] _ rfl, fun j hj => ?_,
    by decide⟩
  obtain rfl : j = 0 := by omega
  decide

/-- StreamSendsBytesInOrder: one byte, at the boundary 0x7F. -/
theorem witness_StreamSendsBytesInOrder :
    (quiet 0xF 0x7).ready = true ∧ okFor (16 * [0x48#8].length) (quiet 0xF 0x7) ∧
    (∀ j, j < [0x48#8].length → busyFlag (join (nibbleAt (quiet 0xF 0x7) (16 * j + 4)) (nibbleAt (quiet 0xF 0x7) (16 * j + 7))) = false) := by
  refine ⟨rfl, quiet_ok _ _, fun j hj => ?_⟩
  obtain rfl : j = 0 := by simpa using hj
  decide

/-- A controller that is busy for ever (V-X6). -/
def busyForEver : State := { State.reset with envRest := some (.ok (levelsOf 8)) }

/-- StreamCanHang, both clauses: the busy environment answers ok for ever and every poll reads bit 7 set. -/
theorem witness_StreamCanHang :
    busyForEver.ready = true ∧ (∀ k, ∃ v, busyForEver.answerAt k = .ok v) ∧
    (∀ j, busyFlag (join (nibbleAt busyForEver (8 * j + 4)) (nibbleAt busyForEver (8 * j + 7))) = true) ∧
    busyForEver.env = [] ∧ busyForEver.envRest = some (.ok (levelsOf 8)) := by
  refine ⟨rfl, fun k => ⟨levelsOf 8, rfl⟩, fun j => ?_, rfl, rfl⟩
  have h : ∀ k, nibbleAt busyForEver k = 8 := fun _ => rfl
  rw [h, h]
  decide

/-- The reset state with one move of the host. -/
def asked (r : Request) : State := { State.reset with host := [r] }

/-- OwnershipMoves, each clause. -/
theorem witness_OwnershipMoves :
    State.reset.seq = .idle ∧ State.reset.stream = none ∧ (asked .new).host = .new :: [] ∧
    (asked .facadeNew).host = .facadeNew :: [] ∧ (asked .release).host = .release :: [] ∧ (asked .wait).host = .wait :: [] := by
  decide

/-- StepRunsPresentedInstruction, each clause. -/
theorem witness_StepRunsPresentedInstruction :
    ((asked (.code ⟨.cmd10, 0x241⟩)).host = .code ⟨.cmd10, 0x241⟩ :: [] ∧
      Code.decode ⟨.cmd10, 0x241⟩ = .ok (.writeData 0x41) ∧ internal (.writeData 0x41) = false) ∧
    ((asked (.call (.writeChar 65))).host = .call (.writeChar 65) :: [] ∧ internal (.writeChar 65) = false) ∧
    ((asked (.code ⟨.evt8, 0x00⟩)).host = .code ⟨.evt8, 0x00⟩ :: [] ∧ Code.decode ⟨.evt8, 0x00⟩ = .ok .rsLow ∧
      internal .rsLow = true) ∧
    ((asked (.call .pulseEnable)).host = .call .pulseEnable :: [] ∧ internal .pulseEnable = true) ∧
    ((asked (.code ⟨.evt8, 0x90⟩)).host = .code ⟨.evt8, 0x90⟩ :: [] ∧ Code.decode ⟨.evt8, 0x90⟩ = .error .unusedEvent) ∧
    State.reset.host = [] := by
  exact ⟨⟨rfl, rfl, rfl⟩, ⟨rfl, rfl⟩, ⟨rfl, rfl, rfl⟩, ⟨rfl, rfl⟩, ⟨rfl, rfl⟩, rfl⟩

/-- IdlePerformsNoAction: an idle step with a command to take, and one that takes NEW. -/
theorem witness_IdlePerformsNoAction :
    ((asked (.call (.state 0))).seq = .idle ∧ (asked (.call (.state 0))).host.head? ≠ some .new ∧
      ∃ t, step (asked (.call (.state 0))) = .next t) ∧
    ((asked .new).seq = .idle ∧ ∃ t, step (asked .new) = .next t) :=
  ⟨⟨rfl, by decide, _, rfl⟩, rfl, _, rfl⟩

/-- PlacedWordIsNext, each clause. -/
theorem witness_PlacedWordIsNext :
    (decodeTableWord 16 0x241 = some (.writeData 0x41) ∧ internal (.writeData 0x41) = false) ∧
    (decodeTableWord 8 0x7F = some (.busWrite 0xF) ∧ actionRow (.busWrite 0xF) = some (.write .data 0x0F, 15)) ∧
    decodeTableWord 32 0x50614061 = some .pulseEnable ∧ decodeTableWord 8 0xF3 = some (.fail .bus) ∧
    (decodeTableWord 8 0x60 = some (.delayUs 0) ∧ (0#4 : Nibble) ≠ 1) := by
  exact ⟨⟨rfl, rfl⟩, ⟨rfl, rfl⟩, rfl, rfl, rfl, by decide⟩

/-- What StepRunsTableRow assumes of a state, a row, its primitive and the state `exec` gives. -/
def AtRow (s t : State) (op : Op) (upc : BitVec 5) (m : Micro) (i : Instr) : Prop :=
  s.seq = .run op upc ∧ stepTable op upc = some m ∧ microInstr m s = some i ∧ exec i s = .next t

/-- StepRunsTableRow: a row that goes on, the two reads, and a row that fails. -/
theorem witness_StepRunsTableRow :
    (∃ t, AtRow (at_ .state 0 (okNibbles [0])) t .state 0 (.action .rsLow) .rsLow ∧ t.seq = .run .state 0) ∧
    (∃ t, AtRow (at_ .state 6 (okNibbles [0xA])) t .state 6 .readLo (.busRead 0) ∧
      t.seq = .run .state 6 ∧ t.out = some (.nibble 0xA)) ∧
    (∃ t, AtRow (at_ .state 11 (okNibbles [0x2])) t .state 11 .readHi (.busRead 0) ∧
      t.seq = .run .state 11 ∧ t.out = some (.nibble 0x2)) ∧
    (∃ t, AtRow (at_ .state 0 [.err errs]) t .state 0 (.action .rsLow) .rsLow ∧ t.seq = .idle) := by
  exact ⟨⟨_, ⟨rfl, rfl, rfl, rfl⟩, rfl⟩, ⟨_, ⟨rfl, rfl, rfl, rfl⟩, rfl, by decide⟩,
    ⟨_, ⟨rfl, rfl, rfl, rfl⟩, rfl, by decide⟩, _, ⟨rfl, rfl, rfl, rfl⟩, rfl⟩

/-- A poll about to read the bus, with everything at its step as the invariant asks. -/
def pollAt (upc : BitVec 5) (en : Level) : State :=
  { at_ .state upc (okNibbles [0xA]) with rsQ := .L, rwQ := .H, enQ := en, cmdQ := 0x100 }

/-- A write of 0x41 about to put its low nibble on the bus. -/
def writeAt : State :=
  { at_ (.write .data 0x41) 15 (okNibbles [0]) with
    rsQ := .H, rwQ := .L, enQ := .L, cmdQ := 0x241, loQ := 0x1, hiQ := 0x4, sr := 0x7F }

theorem pollAt_consistent (upc : BitVec 5) (en : Level) (h1 : upc.toNat ≤ 12) (h2 : eIsHigh upc.toNat = true → en = .H)
    (h3 : eIsLow upc.toNat = true → en = .L) : Consistent (pollAt upc en) := by
  refine consistent_of_run (op := .state) (upc := upc) rfl rfl ⟨h1, ⟨0, by rfl⟩, fun _ _ => rfl, fun _ _ => rfl, h2, h3, ?_⟩
  intro kind b h
  cases h

theorem writeAt_consistent : Consistent writeAt := by
  refine consistent_of_run (op := .write .data 0x41) (upc := 15) rfl rfl ⟨by decide, rfl, fun _ h => absurd h (by decide),
    fun _ h => absurd h (by decide), fun h => absurd h (by decide), fun _ => rfl, ?_⟩
  intro kind b h
  cases h
  exact ⟨fun _ => by decide, fun _ => rfl, fun _ => rfl, fun h => absurd h (by decide), fun h => absurd h (by decide)⟩

/-- StepKeepsConsistent, RunningOperationNeverStops: consistent states that step, within a poll and a write. -/
theorem witness_StepKeepsConsistent :
    (Consistent (pollAt 6 .L) ∧ ∃ t, step (pollAt 6 .L) = .next t) ∧ (Consistent writeAt ∧ ∃ t, step writeAt = .next t) :=
  ⟨⟨pollAt_consistent 6 .L (by decide) (fun h => absurd h (by decide)) (fun _ => rfl), _, rfl⟩, writeAt_consistent, _, rfl⟩

/-- StepCounterAdvances: at the last step of either table and at the busy test. -/
theorem witness_StepCounterAdvances :
    ((at_ .state 12 []).seq = .run .state 12 ∧ (12#5).toNat ≤ lastStep .state) ∧
    ((at_ (.write .data 0x41) 25 []).seq = .run (.write .data 0x41) 25 ∧ (25#5).toNat ≤ lastStep (.write .data 0x41)) := by
  decide

/-- What FailureEndsOperation assumes. -/
def FailsAt (s : State) (op : Op) (upc : BitVec 5) (l : Line) (x : ErrInfos) : Prop :=
  s.seq = .run op upc ∧ upc.toNat ≤ lastStep op ∧ fallibleLine upc.toNat = some l ∧ s.answer = .err x

/-- FailureEndsOperation: at the first and the last action that can fail, and at a read. -/
theorem witness_FailureEndsOperation :
    FailsAt (at_ .state 0 [.err errs]) .state 0 .rs errs ∧
    FailsAt (at_ (.write .data 0x41) 23 [.err errs]) (.write .data 0x41) 23 .en errs ∧
    FailsAt (at_ .state 11 [.err errs]) .state 11 .bus errs := by
  exact ⟨⟨rfl, by decide, rfl, rfl⟩, ⟨rfl, by decide, rfl, rfl⟩, rfl, by decide, rfl, rfl⟩

/-- RunningOperationIsUndisturbed: a step that goes on and one that ends. -/
theorem witness_RunningOperationIsUndisturbed :
    (∃ t, step (pollAt 6 .L) = .next t ∧ t.seq ≠ .idle) ∧ (∃ t, step (pollAt 12 .L) = .next t ∧ t.seq = .idle) :=
  ⟨⟨_, rfl, by decide⟩, _, rfl, rfl⟩

/-- StepPerformsOneAction, LatchesFollowTheHistory: a step whose host has another move than NEW, and one that changes a latch. -/
theorem witness_LatchesFollowTheHistory :
    ((asked .wait).host.head? ≠ some .new ∧ ∃ t, step (asked .wait) = .next t) ∧
    (∃ t, step (at_ .state 0 (okNibbles [0])) = .next t ∧ t.rsQ ≠ (at_ .state 0 (okNibbles [0])).rsQ) :=
  ⟨⟨by decide, _, rfl⟩, _, rfl, by decide⟩

/-- AccessesAreSelected: a step that drives E high, one that reads the bus, one that writes it. -/
theorem witness_AccessesAreSelected :
    (Consistent (pollAt 2 .U) ∧ ∃ t, step (pollAt 2 .U) = .next t ∧ gained (pollAt 2 .U) t [.eHigh]) ∧
    (Consistent (pollAt 6 .L) ∧ ∃ t, step (pollAt 6 .L) = .next t ∧ gained (pollAt 6 .L) t [.busRead 0xA]) ∧
    (Consistent writeAt ∧ ∃ t, step writeAt = .next t ∧ gained writeAt t [.busWrite 0x1]) :=
  ⟨⟨pollAt_consistent 2 .U (by decide) (fun h => absurd h (by decide)) (fun h => absurd h (by decide)), _, rfl, rfl⟩,
    ⟨pollAt_consistent 6 .L (by decide) (fun h => absurd h (by decide)) (fun _ => rfl), _, rfl, rfl⟩,
    writeAt_consistent, _, rfl, rfl⟩

/-- OperationCounts: an operation of each result (V-ST6, V-W4, V-W5), with the history it gained. -/
theorem witness_OperationCounts :
    (∃ t, runToIdle (opSteps .state) (startOp .state 0x100 (withEnv (pollAnswers 0xA 0x2))) = .next t ∧
      gained (withEnv (pollAnswers 0xA 0x2)) t (pollHistory 0xA 0x2) ∧ t.res = some (.successStatus 0x2A)) ∧
    (∃ t, runToIdle (opSteps (.write .data 0x41)) (startOp (.write .data 0x41) 0x241 (withEnv (pollAnswers 0 8))) = .next t ∧
      gained (withEnv (pollAnswers 0 8)) t (pollHistory 0 8) ∧ t.res = some .retryLater) ∧
    (∃ t, runToIdle (opSteps (.write .data 0xFF)) (startOp (.write .data 0xFF) 0x2FF (quiet 0xF 0x7)) = .next t ∧
      gained (quiet 0xF 0x7) t (pollHistory 0xF 0x7 ++ dataHistory .data 0xFF) ∧ t.res = some .success) :=
  ⟨⟨_, rfl, rfl, by decide⟩, ⟨_, rfl, rfl, by decide⟩, _, rfl, rfl, by decide⟩

/-- OperationsForgetThePast: two states that differ in every latch and agree on the answers. -/
theorem witness_OperationsForgetThePast :
    State.env { State.reset with rsQ := .H, loQ := 9, sr := 0xFF, res := some .retryLater } = State.reset.env ∧
    State.envRest { State.reset with rsQ := .H, loQ := 9, sr := 0xFF, res := some .retryLater } = State.reset.envRest ∧
    State.draws { State.reset with rsQ := .H, loQ := 9, sr := 0xFF, res := some .retryLater } = State.reset.draws := by
  exact ⟨rfl, rfl, rfl⟩

/-- OperationsEnd's clauses by the operation. -/
theorem witness_OperationsEnd : Op.state = .state ∧ Op.write .data 0x41 ≠ .state := by decide

/-- Input ports with no error and no command, a read sampling `v`. -/
def portsWith (v : Nibble) : PortsIn :=
  { rst := false, cmdValid := false, cmd := 0, dbI := v, rsErr := false, rwErr := false, eErr := false, busErr := false,
    errInfo := 0 }

/-- Input ports with no error and no command. -/
def quietPorts : PortsIn := portsWith 0x7

/-- ClockTimerRunsOnlyInDelays: the reset state. -/
theorem witness_TimerWithin : TimerWithin Clocked.reset := fun h => absurd rfl h

/-- DelayTakesClkPerUsTicks, StateTakesItsTicks, WriteTakesItsTicks (not busy at 0x77, busy at 0x88). -/
theorem witness_clocked :
    (quietPorts.rst = false ∧ (at_ .state 3 []).tmr = 0 ∧ (at_ .state 3 []).seq = .run .state 3 ∧
      stepTable .state 3 = some (.action (.delayUs 1))) ∧
    (QuietPorts quietPorts ∧ (at_ .state 0 []).tmr = 0 ∧ (at_ .state 0 []).seq = .run .state 0) ∧
    ((at_ (.write .data 0x41) 0 []).seq = .run (.write .data 0x41) 0 ∧
      busyFlag (join quietPorts.dbI quietPorts.dbI) = false) ∧
    (QuietPorts (portsWith 0x8) ∧ busyFlag (join (portsWith 0x8).dbI (portsWith 0x8).dbI) = true) := by
  refine ⟨by decide, ⟨⟨rfl, rfl, rfl, rfl, rfl⟩, rfl, rfl⟩, by decide, ⟨rfl, rfl, rfl, rfl, rfl⟩, by decide⟩

/-- ErrorPortEndsOperation: the port of the line asserted and not, at the last action that can fail. -/
theorem witness_ErrorPortEndsOperation :
    PortsIn.rst { quietPorts with eErr := true } = false ∧ lineErr { quietPorts with eErr := true } .en = true ∧
    lineErr quietPorts .en = false ∧ (at_ (.write .data 0x41) 23 []).seq = .run (.write .data 0x41) 23 ∧
    (23#5).toNat ≤ lastStep (.write .data 0x41) ∧ fallibleLine (23#5).toNat = some .en := by decide

/-- The ports with a valid command. -/
def offering (w : BitVec 10) : PortsIn := { quietPorts with cmdValid := true, cmd := w }

/-- CommandPortHandshake, the clauses with hypotheses; the largest accepted word and the smallest reserved one. -/
theorem witness_CommandPortHandshake :
    ((offering 0x2FF).rst = false ∧ (offering 0x2FF).cmdValid = true ∧ State.reset.ready = true ∧
      (offering 0x2FF).cmd.toNat < 0x300) ∧
    ((offering 0x300).rst = false ∧ State.reset.seq = .idle ∧ (offering 0x300).cmdValid = true ∧
      0x300 ≤ (offering 0x300).cmd.toNat) ∧
    (quietPorts.rst = false ∧ (at_ .state 3 []).seq = .run .state 3) ∧
    PortsIn.rst { quietPorts with rst := true } = true ∧ (inStream 0 .success).res = some .success := by decide

end Sys2Proof.Machine.Tests
end

/-! PROOFS. One step seen from outside: which events it records, how many answers it draws, which line levels it leaves
(00_scope.md R13, 10_state.md R26). -/

namespace Sys2Proof.Machine

/-! ### What the outside sees -/

/-- What a state shows to the lines, the history and the environment: the part that only a primitive action, or NEW, changes. -/
structure Outside where
  rsQ : Level
  rwQ : Level
  enQ : Level
  dbQ : Option Nibble
  trace : List Event
  env : List Answer
  envRest : Option Answer
  draws : Nat

/-- The outside view of a state. -/
def State.outside (s : State) : Outside where
  rsQ := s.rsQ
  rwQ := s.rwQ
  enQ := s.enQ
  dbQ := s.dbQ
  trace := s.trace
  env := s.env
  envRest := s.envRest
  draws := s.draws

theorem outside_eq_iff {s t : State} : t.outside = s.outside ↔
    t.rsQ = s.rsQ ∧ t.rwQ = s.rwQ ∧ t.enQ = s.enQ ∧ t.dbQ = s.dbQ ∧ t.trace = s.trace ∧ t.env = s.env ∧
      t.envRest = s.envRest ∧ t.draws = s.draws := by
  simp [State.outside]

@[simp] theorem startOp_outside (op : Op) (c : BitVec 10) (s : State) : (startOp op c s).outside = s.outside := rfl

@[simp] theorem endOp_outside (r : Result) (s : State) : (endOp r s).outside = s.outside := rfl

@[simp] theorem endStream_outside (r : Result) (k : Nat) (s : State) : (endStream r k s).outside = s.outside := rfl

@[simp] theorem accept_outside (op : Op) (c : BitVec 10) (s : State) : (accept op c s).outside = s.outside := by
  unfold accept
  split <;> rfl

@[simp] theorem issue_outside (st : ByteStream) (s : State) : (issue st s).outside = s.outside := by
  unfold issue
  split <;> rfl

@[simp] theorem openStream_outside (bs : List Byte) (s : State) : (openStream bs s).outside = s.outside := by
  unfold openStream
  split <;> simp

@[simp] theorem streamTurn_outside (st : ByteStream) (s : State) : (streamTurn st s).outside = s.outside := by
  unfold streamTurn
  split <;> simp

@[simp] theorem storeYield_outside (m : Micro) (s : State) : (storeYield m s).outside = s.outside := by
  cases m <;> rfl

@[simp] theorem afterAction_outside (m : Micro) (s : State) : (afterAction m s).outside = s.outside := by
  unfold afterAction
  split
  · exact storeYield_outside m s
  · rfl

@[simp] theorem assembleStatus_outside (op : Op) (upc : BitVec 5) (s : State) :
    (assembleStatus op upc s).outside = s.outside := by
  cases op with
  | state => rfl
  | write kind b =>
    simp only [assembleStatus]
    split <;> rfl

@[simp] theorem complete_outside (m : Micro) (op : Op) (upc : BitVec 5) (s : State) :
    (complete m op upc s).outside = s.outside := by
  cases m with
  | assemble => exact assembleStatus_outside op upc s
  | _ => rfl

/-! ### The host's side of a step -/

/-- What the host may ask of the idle engine performs no action. -/
theorem exec_outside_of_not_internal {i : Instr} {s t : State} (hi : internal i = false) (h : exec i s = .next t) :
    t.outside = s.outside := by
  cases i with
  | state _ | writeInstr _ | writeData _ | clearDisplay | returnHome | facadeState _ | facadeWrite _ _ =>
    cases h
    exact accept_outside _ _ s
  | writeByteBlocking _ | writeBytes _ =>
    cases h
    exact openStream_outside _ s
  | writeChar c =>
    simp only [exec, execWriteChar] at h
    split at h
    · cases h
      exact openStream_outside _ s
    · cases h
  | decodeStatus _ | split _ | join _ _ =>
    cases h
    rfl
  | reservedDataRead _ => cases h
  | rsLow | rsHigh | rwLow | rwHigh | eLow | eHigh | delayUs _ | busWrite _ | busRead _ | fail _ | pulseEnable =>
    cases hi

theorem present_outside {i : Instr} {s t : State} (h : present i s = .next t) : t.outside = s.outside := by
  cases hi : internal i with
  | true =>
    rw [present_of_internal s hi] at h
    cases h
  | false =>
    rw [present_of_not_internal s hi] at h
    exact exec_outside_of_not_internal hi h

theorem serve_outside {r : Request} {s t : State} (hr : r ≠ .new) (h : serve r s = .next t) : t.outside = s.outside := by
  cases r with
  | code c =>
    simp only [serve] at h
    split at h
    · exact present_outside h
    · cases h
  | call i => exact present_outside h
  | new => exact absurd rfl hr
  | facadeNew | release | wait =>
    cases h
    rfl

/-- In Idle a step that does not take NEW changes nothing the outside sees (10_state.md R26). -/
theorem idleStep_outside {s t : State} (hnew : s.stream = none → s.host.head? ≠ some .new) (h : idleStep s = .next t) :
    t.outside = s.outside := by
  unfold idleStep at h
  split at h
  next st _ =>
    cases h
    exact streamTurn_outside st s
  next hstream =>
    split at h
    next =>
      cases h
      rfl
    next r rest hhost =>
      have hr : r ≠ .new := by simpa [hhost] using hnew hstream
      exact serve_outside (s := { s with host := rest }) hr h

/-! ### The rows of a running operation -/

/-- A step of a running operation is an internal completion, or the primitive of its row with what follows it. -/
theorem seqStep_cases {op : Op} {upc : BitVec 5} {s t : State} (h : seqStep op upc s = .next t) :
    ∃ m, stepTable op upc = some m ∧
      ((microInstr m s = none ∧ t = complete m op upc s) ∨
        ∃ i u, microInstr m s = some i ∧ exec i s = .next u ∧ t = afterAction m u) := by
  unfold seqStep at h
  split at h
  next => cases h
  next m hm =>
    refine ⟨m, hm, ?_⟩
    split at h
    next hi =>
      cases h
      exact .inl ⟨hi, rfl⟩
    next i hi =>
      unfold runAction at h
      split at h
      next u hu =>
        cases h
        exact .inr ⟨i, u, hi, hu, rfl⟩
      all_goals cases h

theorem pollTable_actionRow {n : Nat} {i : Instr} (h : pollTable n = some (.action i)) : (actionRow i).isSome := by
  unfold pollTable at h
  split at h <;> cases h <;> rfl

theorem dataTable_actionRow {kind : Kind} {n : Nat} {i : Instr} (h : dataTable kind n = some (.action i)) :
    (actionRow i).isSome := by
  unfold dataTable at h
  split at h <;> cases h <;> cases kind <;> rfl

/-- The action a step table names is one of the primitives that have a row. -/
theorem stepTable_actionRow {op : Op} {upc : BitVec 5} {i : Instr} (h : stepTable op upc = some (.action i)) :
    (actionRow i).isSome := by
  unfold stepTable at h
  split at h
  · exact pollTable_actionRow h
  · cases op with
    | state => cases h
    | write kind b => exact dataTable_actionRow h

/-- What a row runs is one of the primitives that have a row: never the marker alone, a whole pulse, or a host's operation. -/
theorem microInstr_actionRow {op : Op} {upc : BitVec 5} {m : Micro} {i : Instr} {s : State}
    (hm : stepTable op upc = some m) (hi : microInstr m s = some i) : (actionRow i).isSome := by
  cases m with
  | action j =>
    cases hi
    exact stepTable_actionRow hm
  | readLo | readHi | writeLo | writeHi =>
    cases hi
    rfl
  | assemble | finish => cases hi

/-! ### What one action does to the history and the answers -/

/-- From `s` to `t` the history has gained `es` and `n` answers of the environment have been drawn. -/
structure Progress (es : List Event) (n : Nat) (s t : State) : Prop where
  trace : t.trace = s.trace ++ es
  env : t.env = s.env.drop n
  envRest : t.envRest = s.envRest
  draws : t.draws = s.draws + n

theorem Progress.of_outside_eq {s t : State} (h : t.outside = s.outside) : Progress [] 0 s t := by
  obtain ⟨-, -, -, -, htrace, henv, hrest, hdraws⟩ := outside_eq_iff.mp h
  exact ⟨by simpa using htrace, henv, hrest, hdraws⟩

theorem Progress.congr {es : List Event} {n : Nat} {s t u : State} (h : Progress es n s t) (hu : u.outside = t.outside) :
    Progress es n s u := by
  obtain ⟨-, -, -, -, htrace, henv, hrest, hdraws⟩ := outside_eq_iff.mp hu
  exact ⟨htrace.trans h.trace, henv.trans h.env, hrest.trans h.envRest, hdraws.trans h.draws⟩

/-- The histories one step can record, each with the number of answers it asks for: nothing, a delay, an action answered ok,
an action answered err with its marker (00_scope.md R13, 60_exceptions.md R178). -/
inductive StepHistory : List Event → Nat → Prop where
  | nothing : StepHistory [] 0
  | delay (n : Nibble) : StepHistory [.delayUs n] 0
  | acted (e : Event) (he : isAction e = true) : StepHistory [e] 1
  | failed (e : Event) (l : Line) (he : isAction e = true) : StepHistory [e, .fail l] 1

/-- A fallible action whose latch write touches neither the history nor the answers draws one answer, and records itself and,
if it fails, the marker. -/
theorem act_progress {e : Event} {l : Line} {write : State → State} (s : State) (he : isAction e = true)
    (hw : ∀ u, Progress [] 0 u (write u)) : ∃ es n, StepHistory es n ∧ Progress es n s (act e l write s).state := by
  cases h : s.answer with
  | ok v =>
    rw [act_of_ok h]
    obtain ⟨htrace, henv, hrest, hdraws⟩ := hw (s.record e).drawn
    exact ⟨[e], 1, .acted e he, by simpa using htrace, by simpa using henv, hrest, hdraws⟩
  | err x =>
    rw [act_of_err h]
    exact ⟨[e, .fail l], 1, .failed e l he, by simp, by simp, by simp, by simp⟩

theorem actBusRead_progress (s : State) : ∃ es n, StepHistory es n ∧ Progress es n s (actBusRead s).state := by
  cases h : s.answer with
  | ok v =>
    rw [actBusRead_of_ok h]
    exact ⟨[.busRead (nibbleOf v)], 1, .acted _ rfl, by simp, by simp, rfl, rfl⟩
  | err x =>
    rw [actBusRead_of_err h]
    exact ⟨[.busRead 0, .fail .bus], 1, .failed _ _ rfl, by simp, by simp, rfl, rfl⟩

theorem delayUs_progress (n : Nibble) (s : State) : Progress [.delayUs n] 0 s (delayUs n s) :=
  ⟨rfl, rfl, rfl, rfl⟩

/-- A primitive that has a row is one action. -/
theorem exec_progress_of_actionRow {i : Instr} {s t : State} (hi : (actionRow i).isSome) (h : exec i s = .next t) :
    ∃ es n, StepHistory es n ∧ Progress es n s t := by
  cases i with
  | rsLow | rsHigh | rwLow | rwHigh | eLow | eHigh | busWrite _ =>
    cases h
    exact act_progress s rfl fun u => ⟨by simp, rfl, rfl, rfl⟩
  | busRead _ =>
    cases h
    exact actBusRead_progress s
  | delayUs n =>
    cases h
    exact ⟨_, 0, .delay n, delayUs_progress n s⟩
  | _ => cases hi

/-! ### One step -/

theorem seqStep_progress {op : Op} {upc : BitVec 5} {s t : State} (h : seqStep op upc s = .next t) :
    ∃ es n, StepHistory es n ∧ Progress es n s t := by
  obtain ⟨m, hm, ⟨-, rfl⟩ | ⟨i, u, hi, hu, rfl⟩⟩ := seqStep_cases h
  · exact ⟨[], 0, .nothing, .of_outside_eq (complete_outside m op upc s)⟩
  · obtain ⟨es, n, hes, hp⟩ := exec_progress_of_actionRow (microInstr_actionRow hm hi) hu
    exact ⟨es, n, hes, hp.congr (afterAction_outside m u)⟩

/-- A step that does not take NEW records one of the histories of `StepHistory` and draws the answers that go with it. -/
theorem step_progress {s t : State} (hnew : s.seq = .idle → s.stream = none → s.host.head? ≠ some .new)
    (h : step s = .next t) : ∃ es n, StepHistory es n ∧ Progress es n s t := by
  unfold step at h
  split at h
  next => exact seqStep_progress h
  next hseq => exact ⟨[], 0, .nothing, .of_outside_eq (idleStep_outside (hnew hseq) h)⟩

@[simp] theorem isAction_fail (l : Line) : isAction (.fail l) = false := rfl

namespace StepHistory

variable {es : List Event} {n : Nat} (h : StepHistory es n)
include h

theorem actions_le_one : actions es ≤ 1 := by
  cases h with
  | nothing => decide
  | delay | acted => exact List.countP_le_length
  | failed e l he => simp [actions, he]

theorem draws_le_one : n ≤ 1 := by
  cases h <;> decide

theorem shape : es = [] ∨ (∃ e, es = [e]) ∨ ∃ e l, isAction e = true ∧ es = [e, .fail l] := by
  cases h with
  | nothing => exact .inl rfl
  | delay n => exact .inr (.inl ⟨_, rfl⟩)
  | acted e he => exact .inr (.inl ⟨e, rfl⟩)
  | failed e l he => exact .inr (.inr ⟨e, l, he, rfl⟩)

end StepHistory

/-- Settles O46, from what one row of a step table can do (`seqStep_progress`) and from Idle doing nothing that the outside
sees (`idleStep_outside`). -/
theorem stepPerformsOneAction : Obligations.StepPerformsOneAction := by
  intro s t hnew h
  obtain ⟨es, n, hes, hp⟩ := step_progress hnew h
  refine ⟨es, hp.trace, hes.actions_le_one, hes.shape, ?_⟩
  rw [hp.env, hp.draws]
  obtain rfl | rfl : n = 0 ∨ n = 1 := by have := hes.draws_le_one; omega
  · exact ⟨.inl rfl, .inl rfl⟩
  · exact ⟨.inr List.drop_one, .inr rfl⟩

end Sys2Proof.Machine

/-! PROOFS. What a primitive does, and what a step of a running operation does: said once, as a whole next state per kind
of row (10_state.md R27, 40_line_primitives.md R100 to R109, 60_exceptions.md R178). -/

namespace Sys2Proof.Machine

/-! ### What a primitive touches -/

/-- The line a fallible primitive acts on; `none` for a delay and for what is no primitive (60_exceptions.md R177). -/
def actionLine : Instr → Option Line
  | .rsLow | .rsHigh => some .rs
  | .rwLow | .rwHigh => some .rw
  | .eLow | .eHigh => some .en
  | .busWrite _ | .busRead _ => some .bus
  | _ => none

/-- The event a fallible primitive records, `v` being the nibble a read records. -/
def recorded (v : Nibble) : Instr → List Event
  | .rsLow => [.rsLow]
  | .rsHigh => [.rsHigh]
  | .rwLow => [.rwLow]
  | .rwHigh => [.rwHigh]
  | .eLow => [.eLow]
  | .eHigh => [.eHigh]
  | .busWrite w => [.busWrite w]
  | .busRead _ => [.busRead v]
  | _ => []

/-- RS after a primitive answered ok, `q` its level before. -/
def rsAfter (i : Instr) (q : Level) : Level :=
  match i with
  | .rsLow => .L
  | .rsHigh => .H
  | _ => q

/-- RW after a primitive answered ok. -/
def rwAfter (i : Instr) (q : Level) : Level :=
  match i with
  | .rwLow => .L
  | .rwHigh => .H
  | _ => q

/-- E after a primitive answered ok. -/
def enAfter (i : Instr) (q : Level) : Level :=
  match i with
  | .eLow => .L
  | .eHigh => .H
  | _ => q

/-- The data latch after a primitive answered ok. -/
def dbAfter (i : Instr) (q : Option Nibble) : Option Nibble :=
  match i with
  | .busWrite v => some v
  | _ => q

/-- What is yielded after a primitive answered ok with `v` on the bus. -/
def outAfter (i : Instr) (v : Nibble) (q : Option Yield) : Option Yield :=
  match i with
  | .busRead _ => some (.nibble v)
  | _ => q

/-- The data latch after a primitive that failed on `l`: a failed read leaves it (log entry 9). -/
def dbLost (i : Instr) (l : Line) (q : Option Nibble) : Option Nibble :=
  match i, l with
  | .busRead _, _ => q
  | _, .bus => none
  | _, _ => q

/-- The state after a fallible primitive answered ok with `v` on the bus. -/
def afterOk (i : Instr) (v : Nibble) (s : State) : State :=
  { s with
    rsQ := rsAfter i s.rsQ
    rwQ := rwAfter i s.rwQ
    enQ := enAfter i s.enQ
    dbQ := dbAfter i s.dbQ
    out := outAfter i v s.out
    trace := s.trace ++ recorded v i
    env := s.env.tail
    draws := s.draws + 1 }

/-- The state after a fallible primitive that failed on `l` with the values `x`. -/
def afterErr (i : Instr) (l : Line) (x : ErrInfos) (s : State) : State :=
  { s with
    rsQ := if l = .rs then .U else s.rsQ
    rwQ := if l = .rw then .U else s.rwQ
    enQ := if l = .en then .U else s.enQ
    dbQ := dbLost i l s.dbQ
    seq := .idle
    res := some (.failed (failureOn l x))
    trace := s.trace ++ (recorded 0 i ++ [.fail l])
    env := s.env.tail
    draws := s.draws + 1 }

theorem exec_of_ok {i : Instr} {l : Line} {v : Bus4} {s : State} (hl : actionLine i = some l) (h : s.answer = .ok v) :
    exec i s = .next (afterOk i (nibbleOf v) s) := by
  cases i with
  | rsLow | rsHigh | rwLow | rwHigh | eLow | eHigh | busWrite _ =>
    exact congrArg (Host.Outcome.next ·.state) (act_of_ok h)
  | busRead _ => exact congrArg (Host.Outcome.next ·.state) (actBusRead_of_ok h)
  | _ => cases hl

theorem exec_of_err {i : Instr} {l : Line} {x : ErrInfos} {s : State} (hl : actionLine i = some l)
    (h : s.answer = .err x) : exec i s = .next (afterErr i l x s) := by
  cases i with
  | rsLow | rsHigh | rwLow | rwHigh | eLow | eHigh | busWrite _ =>
    cases hl
    refine (congrArg (Host.Outcome.next ·.state) (act_of_err h)).trans (congrArg _ ?_)
    simp [raiseFail, endOp, latchUnknown, State.record, State.drawn, afterErr, recorded, dbLost]
  | busRead _ =>
    cases hl
    refine (congrArg (Host.Outcome.next ·.state) (actBusRead_of_err h)).trans (congrArg _ ?_)
    simp [raiseFail, endOp, State.record, State.drawn, afterErr, recorded, dbLost]
  | _ => cases hl

theorem exec_delayUs (n : Nibble) (s : State) : exec (.delayUs n) s = .next (delayUs n s) := rfl

/-- A fallible primitive records one action, whatever a read records. -/
theorem recorded_of_actionLine {i : Instr} {l : Line} (hl : actionLine i = some l) (v : Nibble) :
    ∃ e, isAction e = true ∧ recorded v i = [e] := by
  cases i with
  | rsLow | rsHigh | rwLow | rwHigh | eLow | eHigh | busWrite _ | busRead _ => exact ⟨_, rfl, rfl⟩
  | _ => cases hl

/-! ### The rows of the step tables -/

/-- The line a row acts on; `none` for a delay and an internal completion. -/
def microLine : Micro → Option Line
  | .action i => actionLine i
  | .readLo | .readHi | .writeLo | .writeHi => some .bus
  | .assemble | .finish => none

theorem microInstr_of_microLine {m : Micro} {l : Line} (hl : microLine m = some l) (s : State) :
    ∃ i, microInstr m s = some i ∧ actionLine i = some l := by
  cases m with
  | assemble | finish => cases hl
  | _ => exact ⟨_, rfl, hl⟩

theorem pollTable_kind {n : Nat} {m : Micro} (h : pollTable n = some m) :
    (∃ l, microLine m = some l ∧ fallibleLine n = some l) ∨
      (m = .action (.delayUs 1) ∧ fallibleLine n = none ∧ n ≠ 12 ∧ n ≠ 25) ∨ (m = .assemble ∧ n = 12) := by
  unfold pollTable at h
  split at h <;> cases h <;> simp [microLine, actionLine, fallibleLine, Config.tEhMin, Config.tElMin]

theorem dataTable_kind {kind : Kind} {n : Nat} {m : Micro} (h : dataTable kind n = some m) :
    (∃ l, microLine m = some l ∧ fallibleLine n = some l) ∨
      (m = .action (.delayUs 1) ∧ fallibleLine n = none ∧ n ≠ 12 ∧ n ≠ 25) ∨ (m = .finish ∧ n = 25) := by
  unfold dataTable at h
  split at h <;> cases h <;> cases kind <;>
    simp [microLine, actionLine, fallibleLine, rsAction, Config.tEhMin, Config.tElMin]

/-- A row of a table is one of the poll's or, in a write, one of the data phase's. -/
theorem stepTable_cases {op : Op} {upc : BitVec 5} {m : Micro} (h : stepTable op upc = some m) :
    (upc.toNat ≤ 12 ∧ pollTable upc.toNat = some m) ∨
      ∃ kind b, op = .write kind b ∧ 12 < upc.toNat ∧ dataTable kind upc.toNat = some m := by
  unfold stepTable at h
  split at h
  next hle => exact .inl ⟨hle, h⟩
  next hgt =>
    cases op with
    | state => cases h
    | write kind b => exact .inr ⟨kind, b, rfl, not_le.mp hgt, h⟩

/-- A row is a fallible primitive, a delay of 1, step 12 or step 25; the table of `fallibleLine` says which line (R177). -/
theorem stepTable_kind {op : Op} {upc : BitVec 5} {m : Micro} (h : stepTable op upc = some m) :
    (∃ l, microLine m = some l ∧ fallibleLine upc.toNat = some l) ∨
      (m = .action (.delayUs 1) ∧ fallibleLine upc.toNat = none ∧ upc.toNat ≠ 12 ∧ upc.toNat ≠ 25) ∨
      (m = .assemble ∧ upc.toNat = 12) ∨ (m = .finish ∧ upc.toNat = 25) := by
  obtain ⟨-, hp⟩ | ⟨kind, b, rfl, -, hd⟩ := stepTable_cases h
  · obtain hl | hd | ha := pollTable_kind hp
    · exact .inl hl
    · exact .inr (.inl hd)
    · exact .inr (.inr (.inl ha))
  · obtain hl | hd | hf := dataTable_kind hd
    · exact .inl hl
    · exact .inr (.inl hd)
    · exact .inr (.inr (.inr hf))

/-- An operation's table has the rows up to its last step and no more. -/
theorem stepTable_isSome (op : Op) (upc : BitVec 5) : (stepTable op upc).isSome = decide (upc.toNat ≤ lastStep op) := by
  cases op with
  | state =>
    revert upc
    decide
  | write kind b =>
    have hb : ∀ upc, stepTable (.write kind b) upc = stepTable (.write kind 0) upc := fun _ => rfl
    rw [hb]
    change (stepTable (.write kind 0) upc).isSome = decide (upc.toNat ≤ 25)
    revert upc
    cases kind <;> decide

theorem lastStep_le (op : Op) : lastStep op ≤ 25 := by
  cases op <;> simp [lastStep]

theorem exists_row {op : Op} {upc : BitVec 5} (h : upc.toNat ≤ lastStep op) : ∃ m, stepTable op upc = some m :=
  Option.isSome_iff_exists.mp ((stepTable_isSome op upc).trans (decide_eq_true h))

theorem le_lastStep_of_row {op : Op} {upc : BitVec 5} {m : Micro} (h : stepTable op upc = some m) :
    upc.toNat ≤ lastStep op := by
  have hs := stepTable_isSome op upc
  rw [h] at hs
  exact of_decide_eq_true hs.symm

/-! ### The next state of each kind of row -/

section Step

variable {op : Op} {upc : BitVec 5} {m : Micro} {i : Instr} {l : Line} {s t : State}

theorem step_of_run (hs : s.seq = .run op upc) : step s = seqStep op upc s := by
  simp only [step, hs]

theorem step_of_exec (hs : s.seq = .run op upc) (hm : stepTable op upc = some m) (hi : microInstr m s = some i)
    (h : exec i s = .next t) : step s = .next (afterAction m t) := by
  rw [step_of_run hs]
  simp only [seqStep, hm, hi]
  exact runAction_of_next h

theorem step_of_complete (hs : s.seq = .run op upc) (hm : stepTable op upc = some m) (hi : microInstr m s = none) :
    step s = .next (complete m op upc s) := by
  rw [step_of_run hs]
  simp only [seqStep, hm, hi]

/-- After an action that did not fail: a nibble read is stored and the step counter is one higher (R27, R28). -/
def goOn (m : Micro) (op : Op) (upc : BitVec 5) (s : State) : State := { storeYield m s with seq := .run op (upc + 1) }

theorem afterAction_of_run (h : t.seq = .run op upc) : afterAction m t = goOn m op upc t := by
  simp only [afterAction, h, goOn]

theorem afterAction_of_idle (h : t.seq = .idle) : afterAction m t = t := by
  simp only [afterAction, h]

theorem step_of_ok {v : Bus4} (hs : s.seq = .run op upc) (hm : stepTable op upc = some m)
    (hi : microInstr m s = some i) (hl : actionLine i = some l) (ha : s.answer = .ok v) :
    step s = .next (goOn m op upc (afterOk i (nibbleOf v) s)) := by
  have hrun : (afterOk i (nibbleOf v) s).seq = .run op upc := hs
  rw [step_of_exec hs hm hi (exec_of_ok hl ha), afterAction_of_run hrun]

theorem step_of_err {x : ErrInfos} (hs : s.seq = .run op upc) (hm : stepTable op upc = some m)
    (hi : microInstr m s = some i) (hl : actionLine i = some l) (ha : s.answer = .err x) :
    step s = .next (afterErr i l x s) := by
  rw [step_of_exec hs hm hi (exec_of_err hl ha), afterAction_of_idle rfl]

theorem step_of_delay {n : Nibble} (hs : s.seq = .run op upc) (hm : stepTable op upc = some (.action (.delayUs n))) :
    step s = .next (goOn (.action (.delayUs n)) op upc (delayUs n s)) := by
  have hrun : (delayUs n s).seq = .run op upc := hs
  rw [step_of_exec hs hm rfl (exec_delayUs n s), afterAction_of_run hrun]

/-- The next states of a running operation, one constructor per kind of row and answer. -/
inductive RowStep (op : Op) (upc : BitVec 5) (s : State) : State → Prop where
  | acted (m : Micro) (i : Instr) (l : Line) (v : Bus4) (hm : stepTable op upc = some m)
      (hi : microInstr m s = some i) (hl : actionLine i = some l) (hn : fallibleLine upc.toNat = some l)
      (ha : s.answer = .ok v) : RowStep op upc s (goOn m op upc (afterOk i (nibbleOf v) s))
  | failed (i : Instr) (l : Line) (x : ErrInfos) (hl : actionLine i = some l) (hn : fallibleLine upc.toNat = some l)
      (ha : s.answer = .err x) : RowStep op upc s (afterErr i l x s)
  | delayed (hm : stepTable op upc = some (.action (.delayUs 1))) (hn : fallibleLine upc.toNat = none)
      (h12 : upc.toNat ≠ 12) (h25 : upc.toNat ≠ 25) :
      RowStep op upc s (goOn (.action (.delayUs 1)) op upc (delayUs 1 s))
  | assembled (hn : upc.toNat = 12) : RowStep op upc s (assembleStatus op upc s)
  | finished (hn : upc.toNat = 25) : RowStep op upc s (endOp .success s)

/-- A row of the table gives a next state, and it is one of `RowStep`. -/
theorem exists_rowStep (hs : s.seq = .run op upc) (hm : stepTable op upc = some m) :
    ∃ t, step s = .next t ∧ RowStep op upc s t := by
  obtain ⟨l, hl, hn⟩ | ⟨rfl, hn, h12, h25⟩ | ⟨rfl, hn⟩ | ⟨rfl, hn⟩ := stepTable_kind hm
  · obtain ⟨i, hi, hil⟩ := microInstr_of_microLine hl s
    cases ha : s.answer with
    | ok v => exact ⟨_, step_of_ok hs hm hi hil ha, .acted m i l v hm hi hil hn ha⟩
    | err x => exact ⟨_, step_of_err hs hm hi hil ha, .failed i l x hil hn ha⟩
  · exact ⟨_, step_of_delay hs hm, .delayed hm hn h12 h25⟩
  · exact ⟨_, step_of_complete hs hm rfl, .assembled hn⟩
  · exact ⟨_, step_of_complete hs hm rfl, .finished hn⟩

/-- What a step of a running operation can do. -/
theorem rowStep_of_step (hs : s.seq = .run op upc) (h : step s = .next t) :
    upc.toNat ≤ lastStep op ∧ RowStep op upc s t := by
  obtain ⟨m, hm, -⟩ := seqStep_cases ((step_of_run hs).symm.trans h)
  obtain ⟨u, hu, hr⟩ := exists_rowStep hs hm
  rw [h] at hu
  cases hu
  exact ⟨le_lastStep_of_row hm, hr⟩

end Step

section GoOn

variable (m : Micro) (op : Op) (upc : BitVec 5) (s : State)

@[simp] theorem goOn_rsQ : (goOn m op upc s).rsQ = s.rsQ := by cases m <;> rfl

@[simp] theorem goOn_rwQ : (goOn m op upc s).rwQ = s.rwQ := by cases m <;> rfl

@[simp] theorem goOn_enQ : (goOn m op upc s).enQ = s.enQ := by cases m <;> rfl

@[simp] theorem goOn_dbQ : (goOn m op upc s).dbQ = s.dbQ := by cases m <;> rfl

@[simp] theorem goOn_seq : (goOn m op upc s).seq = .run op (upc + 1) := rfl

@[simp] theorem goOn_cmdQ : (goOn m op upc s).cmdQ = s.cmdQ := by cases m <;> rfl

@[simp] theorem goOn_loQ : (goOn m op upc s).loQ = if m = .readLo then yieldedNibble s else s.loQ := by cases m <;> rfl

@[simp] theorem goOn_hiQ : (goOn m op upc s).hiQ = if m = .readHi then yieldedNibble s else s.hiQ := by cases m <;> rfl

@[simp] theorem goOn_sr : (goOn m op upc s).sr = s.sr := by cases m <;> rfl

@[simp] theorem goOn_res : (goOn m op upc s).res = s.res := by cases m <;> rfl

@[simp] theorem goOn_tmr : (goOn m op upc s).tmr = s.tmr := by cases m <;> rfl

@[simp] theorem goOn_trace : (goOn m op upc s).trace = s.trace := by cases m <;> rfl

@[simp] theorem goOn_stream : (goOn m op upc s).stream = s.stream := by cases m <;> rfl

@[simp] theorem goOn_accepted : (goOn m op upc s).accepted = s.accepted := by cases m <;> rfl

@[simp] theorem goOn_host : (goOn m op upc s).host = s.host := by cases m <;> rfl

@[simp] theorem goOn_env : (goOn m op upc s).env = s.env := by cases m <;> rfl

@[simp] theorem goOn_envRest : (goOn m op upc s).envRest = s.envRest := by cases m <;> rfl

@[simp] theorem goOn_draws : (goOn m op upc s).draws = s.draws := by cases m <;> rfl

end GoOn

end Sys2Proof.Machine

/-! PROOFS. What the rows do to each line and latch, the host's registers during an operation, the step counter, and the
invariant of the machine (10_state.md R27, R29, 41_status_poll.md R121, 42_write.md R131, 43_timed_facade.md R151). -/

namespace Sys2Proof.Machine

/-! ### What the rows do to each line -/

section Rows

variable {op : Op} {upc : BitVec 5} {m : Micro} {i : Instr} {s : State}

/-- RS in the data phase of an operation (20_memory.md R67). -/
def Op.rsLevel : Op → Level
  | .state => .L
  | .write kind _ => rsLevelOf kind

/-- RS is driven by step 0, low, and by step 13, to the operand's level. -/
theorem rsAfter_of_row (hm : stepTable op upc = some m) (hi : microInstr m s = some i) (q : Level) :
    rsAfter i q = if upc.toNat = 0 then .L else if upc.toNat = 13 then op.rsLevel else q := by
  obtain ⟨-, hp⟩ | ⟨kind, b, rfl, -, hd⟩ := stepTable_cases hm
  · unfold pollTable at hp
    split at hp <;> cases hp <;> cases hi <;> simp [*, rsAfter]
  · unfold dataTable at hd
    split at hd <;> cases hd <;> cases hi <;> cases kind <;> simp [*, rsAfter, rsAction, Op.rsLevel, rsLevelOf]

/-- RW is driven by step 1, high, and by step 14, low. -/
theorem rwAfter_of_row (hm : stepTable op upc = some m) (hi : microInstr m s = some i) (q : Level) :
    rwAfter i q = if upc.toNat = 1 then .H else if upc.toNat = 14 then .L else q := by
  obtain ⟨-, hp⟩ | ⟨kind, b, rfl, -, hd⟩ := stepTable_cases hm
  · unfold pollTable at hp
    split at hp <;> cases hp <;> cases hi <;> simp [*, rwAfter]
  · unfold dataTable at hd
    split at hd <;> cases hd <;> cases hi <;> cases kind <;> simp [*, rwAfter, rsAction]

/-- E is driven high by the first row of each pulse and low by the third. -/
theorem enAfter_of_row (hm : stepTable op upc = some m) (hi : microInstr m s = some i) (q : Level) :
    enAfter i q = if upc.toNat ∈ [2, 7, 16, 21] then .H else if upc.toNat ∈ [4, 9, 18, 23] then .L else q := by
  obtain ⟨-, hp⟩ | ⟨kind, b, rfl, -, hd⟩ := stepTable_cases hm
  · unfold pollTable at hp
    split at hp <;> cases hp <;> cases hi <;> simp [*, enAfter]
  · unfold dataTable at hd
    split at hd <;> cases hd <;> cases hi <;> cases kind <;> simp [*, enAfter, rsAction]

/-- The bus is driven by step 15, with the low nibble, and by step 20, with the high one. -/
theorem dbAfter_of_row (hm : stepTable op upc = some m) (hi : microInstr m s = some i) (q : Option Nibble) :
    dbAfter i q = if upc.toNat = 15 then some s.loQ else if upc.toNat = 20 then some s.hiQ else q := by
  obtain ⟨-, hp⟩ | ⟨kind, b, rfl, -, hd⟩ := stepTable_cases hm
  · unfold pollTable at hp
    split at hp <;> cases hp <;> cases hi <;> simp [*, dbAfter]
  · unfold dataTable at hd
    split at hd <;> cases hd <;> cases hi <;> cases kind <;> simp [*, dbAfter, rsAction]

/-- Only steps 6 and 11 store what they read (R28). -/
theorem readLo_iff_of_row (hm : stepTable op upc = some m) : m = .readLo ↔ upc.toNat = 6 := by
  obtain ⟨-, hp⟩ | ⟨kind, b, rfl, -, hd⟩ := stepTable_cases hm
  · unfold pollTable at hp
    split at hp <;> cases hp <;> simp [*]
  · unfold dataTable at hd
    split at hd <;> cases hd <;> simp [*]

theorem readHi_iff_of_row (hm : stepTable op upc = some m) : m = .readHi ↔ upc.toNat = 11 := by
  obtain ⟨-, hp⟩ | ⟨kind, b, rfl, -, hd⟩ := stepTable_cases hm
  · unfold pollTable at hp
    split at hp <;> cases hp <;> simp [*]
  · unfold dataTable at hd
    split at hd <;> cases hd <;> simp [*]

end Rows

/-! ### The invariant of a running operation -/

/-- A row that does not fail puts its levels on the lines and leaves the rest of what the invariant speaks of; the nibble
latches may change in the poll phase only. -/
structure Drives (i : Instr) (n : Nat) (s t : State) : Prop where
  rs : t.rsQ = rsAfter i s.rsQ
  rw : t.rwQ = rwAfter i s.rwQ
  en : t.enQ = enAfter i s.enQ
  db : t.dbQ = dbAfter i s.dbQ
  cmd : t.cmdQ = s.cmdQ
  sr : t.sr = s.sr
  lo : 13 ≤ n → t.loQ = s.loQ
  hi : 13 ≤ n → t.hiQ = s.hiQ

section Keeps

variable {op : Op} {upc : BitVec 5} {m : Micro} {i : Instr} {s t : State}

/-- Where E is to be high, the step before has driven it high, or it was to be high there and was not driven low. -/
theorem eIsHigh_succ (n : Nat) (h : n ≤ 25) : eIsHigh (n + 1) = true →
    n ∈ [2, 7, 16, 21] ∨ (eIsHigh n = true ∧ n ∉ [4, 9, 18, 23]) := by
  revert h
  revert n
  decide

theorem eIsLow_succ (n : Nat) (h : n ≤ 25) : eIsLow (n + 1) = true →
    n ∉ [2, 7, 16, 21] ∧ (n ∈ [4, 9, 18, 23] ∨ eIsLow n = true) := by
  revert h
  revert n
  decide

theorem dataPhase_succ {kind : Kind} {b : Byte} (hm : stepTable (.write kind b) upc = some m)
    (hi : microInstr m s = some i) (h12 : upc.toNat ≠ 12) (hd : Drives i upc.toNat s t) (h : DataPhase kind b upc.toNat s) :
    DataPhase kind b (upc.toNat + 1) t := by
  obtain ⟨hlatch, hrs, hrw, hlo, hhi⟩ := h
  refine ⟨fun h13 => ?_, fun h14 => ?_, fun h15 => ?_, fun h16 h20 => ?_, fun h21 => ?_⟩
  · obtain ⟨hsr, hl, hh⟩ := hlatch (by omega)
    exact ⟨hd.sr ▸ hsr, (hd.lo (by omega)).trans hl, (hd.hi (by omega)).trans hh⟩
  · rw [hd.rs, rsAfter_of_row hm hi, if_neg (by omega)]
    split
    · rfl
    · exact hrs (by omega)
  · rw [hd.rw, rwAfter_of_row hm hi, if_neg (by omega)]
    split
    · rfl
    · exact hrw (by omega)
  · rw [hd.db, dbAfter_of_row hm hi]
    split
    · obtain ⟨-, hl, -⟩ := hlatch (by omega)
      exact congrArg some hl
    · rw [if_neg (by omega)]
      exact hlo (by omega) (by omega)
  · rw [hd.db, dbAfter_of_row hm hi, if_neg (by omega)]
    split
    · obtain ⟨-, -, hh⟩ := hlatch (by omega)
      exact congrArg some hh
    · exact hhi (by omega)

theorem atStep_succ (hm : stepTable op upc = some m) (hi : microInstr m s = some i) (h12 : upc.toNat ≠ 12)
    (hlast : upc.toNat + 1 ≤ lastStep op) (hd : Drives i upc.toNat s t) (h : AtStep op upc.toNat s) :
    AtStep op (upc.toNat + 1) t := by
  obtain ⟨hle, hcmd, hrs, hrw, hhigh, hlow, hdata⟩ := h
  have h25 := hle.trans (lastStep_le op)
  refine ⟨hlast, hd.cmd ▸ hcmd, fun _ h13 => ?_, fun h2 h14 => ?_, fun he => ?_, fun he => ?_, fun kind b ho => ?_⟩
  · rw [hd.rs, rsAfter_of_row hm hi]
    split
    · rfl
    · rw [if_neg (by omega)]
      exact hrs (by omega) (by omega)
  · rw [hd.rw, rwAfter_of_row hm hi]
    split
    · rfl
    · rw [if_neg (by omega)]
      exact hrw (by omega) (by omega)
  · rw [hd.en, enAfter_of_row hm hi]
    obtain hdriven | ⟨hwas, hkept⟩ := eIsHigh_succ _ h25 he
    · rw [if_pos hdriven]
    · rw [if_neg hkept, hhigh hwas, ite_self]
  · rw [hd.en, enAfter_of_row hm hi]
    obtain ⟨hnot, hdriven | hwas⟩ := eIsLow_succ _ h25 he
    · rw [if_neg hnot, if_pos hdriven]
    · rw [if_neg hnot, hlow hwas, ite_self]
  · cases ho
    exact dataPhase_succ hm hi h12 hd (hdata _ _ rfl)

end Keeps

/-! ### The host's registers during an operation -/

theorem assembleStatus_cases (op : Op) (upc : BitVec 5) (s : State) :
    (∃ r, assembleStatus op upc s = endOp r { s with sr := join s.loQ s.hiQ } ∧
        (op = .state ∨ busyFlag (join s.loQ s.hiQ) = true)) ∨
      ∃ kind b, op = .write kind b ∧ busyFlag (join s.loQ s.hiQ) = false ∧
        assembleStatus op upc s =
          { s with sr := join s.loQ s.hiQ, loQ := lo4 b, hiQ := hi4 b, seq := .run op (upc + 1) } := by
  cases op with
  | state => exact .inl ⟨_, rfl, .inl rfl⟩
  | write kind b =>
    cases hb : busyFlag (join s.loQ s.hiQ) with
    | true => exact .inl ⟨.retryLater, if_pos hb, .inr rfl⟩
    | false => exact .inr ⟨kind, b, rfl, rfl, if_neg (by simp [hb])⟩

namespace RowStep

variable {op : Op} {upc : BitVec 5} {s t : State}

/-- The host's list, the command latch, the stream and the count stand. -/
theorem host_frame (h : RowStep op upc s t) :
    t.host = s.host ∧ t.cmdQ = s.cmdQ ∧ t.stream = s.stream ∧ t.accepted = s.accepted := by
  cases h with
  | acted | delayed => simp [afterOk]
  | failed | finished => exact ⟨rfl, rfl, rfl, rfl⟩
  | assembled =>
    obtain ⟨r, ha, -⟩ | ⟨kind, b, -, -, ha⟩ := assembleStatus_cases op upc s <;> rw [ha] <;> exact ⟨rfl, rfl, rfl, rfl⟩

/-- A step ends the operation with a result or leaves the result and goes on to the next step. -/
theorem ends_or_goes_on (h : RowStep op upc s t) :
    (t.seq = .idle ∧ t.res ≠ none) ∨ (t.seq = .run op (upc + 1) ∧ t.res = s.res) := by
  cases h with
  | acted | delayed => exact .inr ⟨rfl, by simp [afterOk]⟩
  | failed | finished => exact .inl ⟨rfl, by simp [afterErr]⟩
  | assembled =>
    obtain ⟨r, ha, -⟩ | ⟨kind, b, -, -, ha⟩ := assembleStatus_cases op upc s <;> rw [ha]
    · exact .inl ⟨rfl, by simp⟩
    · exact .inr ⟨rfl, rfl⟩

end RowStep

/-- Settles O45, from what a step of a running operation can do (`RowStep`). -/
theorem runningOperationIsUndisturbed : Obligations.RunningOperationIsUndisturbed := by
  intro s t op upc hs h
  obtain ⟨-, hr⟩ := rowStep_of_step hs h
  obtain ⟨hhost, hcmd, hstream, hacc⟩ := hr.host_frame
  refine ⟨hhost, hcmd, hstream, hacc, fun hrun => ?_, fun hidle => ?_⟩
  · obtain ⟨hseq, -⟩ | ⟨-, hres⟩ := hr.ends_or_goes_on
    · exact absurd hseq hrun
    · exact hres
  · obtain ⟨-, hres⟩ | ⟨hseq, -⟩ := hr.ends_or_goes_on
    · exact hres
    · exact absurd (hidle.symm.trans hseq) nofun

/-- Settles O43, from what a step of a running operation can do (`exists_rowStep`). -/
theorem stepCounterAdvances : Obligations.StepCounterAdvances := by
  intro s op upc hs hle
  obtain ⟨m, hm⟩ := exists_row hle
  obtain ⟨t, ht, hr⟩ := exists_rowStep hs hm
  refine ⟨t, ht, hr.ends_or_goes_on.imp And.left And.left, ?_⟩
  cases hr with
  | acted _ _ l v _ _ _ hn ha =>
    refine iff_of_false nofun ?_
    rintro (⟨_, _, -, hx⟩ | ⟨h12, -⟩ | h25)
    · cases ha.symm.trans hx
    · simp [h12, fallibleLine] at hn
    · simp [h25, fallibleLine] at hn
  | failed _ l x _ hn ha => exact iff_of_true rfl (.inl ⟨l, x, hn, ha⟩)
  | delayed _ hn h12 h25 =>
    refine iff_of_false nofun ?_
    rintro (⟨_, _, hl, -⟩ | ⟨h, -⟩ | h)
    · cases hn.symm.trans hl
    · exact h12 h
    · exact h25 h
  | assembled hn =>
    obtain ⟨r, ha, hend⟩ | ⟨kind, b, rfl, hb, ha⟩ := assembleStatus_cases op upc s
    · rw [ha]
      exact iff_of_true rfl (.inr (.inl ⟨hn, hend⟩))
    · rw [ha]
      refine iff_of_false nofun ?_
      simp [hn, hb, fallibleLine]
  | finished hn => exact iff_of_true rfl (.inr (.inr hn))

/-! ### The invariant -/

theorem lt_lastStep {op : Op} {n : Nat} (h : n ≤ lastStep op) (h12 : n ≠ 12) (h25 : n ≠ 25) : n + 1 ≤ lastStep op := by
  cases op <;> simp only [lastStep] at * <;> omega

theorem upc_toNat_succ {op : Op} {upc : BitVec 5} (h : upc.toNat ≤ lastStep op) : (upc + 1).toNat = upc.toNat + 1 := by
  have := lastStep_le op
  bv_omega

theorem fallibleLine_ne {n : Nat} {l : Line} (h : fallibleLine n = some l) : n ≠ 12 ∧ n ≠ 25 := by
  constructor <;> rintro rfl <;> cases h

theorem drives_goOn_afterOk {op : Op} {upc : BitVec 5} {m : Micro} (hm : stepTable op upc = some m) (i : Instr)
    (v : Nibble) (s : State) : Drives i upc.toNat s (goOn m op upc (afterOk i v s)) where
  rs := by simp [afterOk]
  rw := by simp [afterOk]
  en := by simp [afterOk]
  db := by simp [afterOk]
  cmd := by simp [afterOk]
  sr := by simp [afterOk]
  lo h := by
    have : m ≠ .readLo := mt (readLo_iff_of_row hm).mp (by omega)
    simp [this, afterOk]
  hi h := by
    have : m ≠ .readHi := mt (readHi_iff_of_row hm).mp (by omega)
    simp [this, afterOk]

theorem drives_goOn_delayUs (op : Op) (upc : BitVec 5) (n : Nibble) (s : State) :
    Drives (.delayUs n) upc.toNat s (goOn (.action (.delayUs n)) op upc (delayUs n s)) :=
  ⟨rfl, rfl, rfl, rfl, rfl, rfl, fun _ => rfl, fun _ => rfl⟩

/-- Past the busy test of a write: not busy, the operand in the nibble latches, the lines as the poll left them. -/
theorem atStep_assembled {kind : Kind} {b : Byte} {s t : State} (hb : busyFlag t.sr = false) (hl : t.loQ = lo4 b)
    (hh : t.hiQ = hi4 b) (ho : t.outside = s.outside) (hc : t.cmdQ = s.cmdQ) (h : AtStep (.write kind b) 12 s) :
    AtStep (.write kind b) 13 t := by
  obtain ⟨-, hcmd, hrs, hrw, -, hlow, -⟩ := h
  obtain ⟨ers, erw, een, -⟩ := outside_eq_iff.mp ho
  refine ⟨by simp [lastStep], hc ▸ hcmd, fun _ _ => ers ▸ hrs (by decide) (by decide),
    fun _ _ => erw ▸ hrw (by decide) (by decide), nofun, fun _ => een ▸ hlow rfl, fun k c e => ?_⟩
  cases e
  exact ⟨fun _ => ⟨hb, hl, hh⟩, by omega, by omega, by omega, by omega⟩

/-- A step that does not end the operation leaves what holds before the next step. -/
theorem RowStep.atStep {op : Op} {upc : BitVec 5} {s t : State} (h : RowStep op upc s t) (hrun : t.seq ≠ .idle)
    (hat : AtStep op upc.toNat s) : AtStep op (upc + 1).toNat t := by
  have hle : upc.toNat ≤ lastStep op := hat.1
  rw [upc_toNat_succ hle]
  cases h with
  | acted m i l v hm hi hl hn ha =>
    obtain ⟨h12, h25⟩ := fallibleLine_ne hn
    exact atStep_succ hm hi h12 (lt_lastStep hle h12 h25) (drives_goOn_afterOk hm i _ s) hat
  | delayed hm hn h12 h25 =>
    exact atStep_succ (s := s) hm rfl h12 (lt_lastStep hle h12 h25) (drives_goOn_delayUs op upc 1 s) hat
  | failed | finished => exact absurd rfl hrun
  | assembled hn =>
    rw [hn] at hat ⊢
    obtain ⟨r, ha, -⟩ | ⟨kind, b, rfl, hb, ha⟩ := assembleStatus_cases op upc s
    · exact absurd (congrArg State.seq ha) hrun
    · rw [ha]
      exact atStep_assembled (s := s) hb rfl rfl rfl rfl hat

theorem consistent_of_idle {s : State} (hseq : s.seq = .idle) (hstream : s.stream = none) : Consistent s := by
  refine ⟨fun _ _ h => ?_, fun _ h => ?_⟩
  · cases hseq.symm.trans h
  · cases hstream.symm.trans h

theorem seqStep_keeps_consistent {op : Op} {upc : BitVec 5} {s t : State} (hs : s.seq = .run op upc) (hc : Consistent s)
    (h : step s = .next t) : Consistent t := by
  obtain ⟨-, hr⟩ := rowStep_of_step hs h
  obtain ⟨-, -, hstream, -⟩ := hr.host_frame
  obtain ⟨hat, hst⟩ := hc
  refine ⟨fun o u hseq => ?_, fun st hst' => ?_⟩
  · obtain ⟨hidle, -⟩ | ⟨hrun, -⟩ := hr.ends_or_goes_on
    · cases hidle.symm.trans hseq
    · cases hrun.symm.trans hseq
      exact hr.atStep (by simp [hrun]) (hat op upc hs)
  · obtain ⟨hk, hbyte⟩ := hst st (hstream.symm.trans hst')
    refine ⟨hk, fun o u hseq => ?_⟩
    obtain ⟨hidle, -⟩ | ⟨hrun, -⟩ := hr.ends_or_goes_on
    · cases hidle.symm.trans hseq
    · cases hrun.symm.trans hseq
      exact hbyte op upc hs

/-! ### The invariant in Idle -/

theorem atStep_startOp {op : Op} {cmd : BitVec 10} (h : latchedCommand op cmd) (s : State) :
    AtStep op 0 (startOp op cmd s) :=
  ⟨Nat.zero_le _, h, by omega, by omega, nofun, nofun, fun _ _ _ => ⟨by omega, by omega, by omega, by omega, by omega⟩⟩

theorem consistent_startOp {op : Op} {cmd : BitVec 10} {s : State} (hcmd : latchedCommand op cmd)
    (hst : ∀ st, s.stream = some st → ∃ b, st.bytes[st.k]? = some b ∧ op = .write .data b) :
    Consistent (startOp op cmd s) := by
  refine ⟨fun o u h => ?_, fun st h => ?_⟩
  · cases h
    exact atStep_startOp hcmd s
  · obtain ⟨b, hb, hop⟩ := hst st h
    refine ⟨(List.getElem?_eq_some_iff.mp hb).1, fun o u h => ?_⟩
    cases h
    exact ⟨b, hb, hop⟩

theorem consistent_endStream {s : State} (r : Result) (k : Nat) (hs : s.seq = .idle) : Consistent (endStream r k s) :=
  consistent_of_idle hs rfl

theorem consistent_issue {s : State} (st : ByteStream) (hs : s.seq = .idle) : Consistent (issue st s) := by
  unfold issue
  split
  next b hb =>
    refine consistent_startOp rfl fun st' h => ?_
    cases h
    exact ⟨b, hb, rfl⟩
  next => exact consistent_endStream _ _ hs

theorem consistent_streamTurn {s : State} (st : ByteStream) (hs : s.seq = .idle) : Consistent (streamTurn st s) := by
  unfold streamTurn
  split
  · exact consistent_issue _ hs
  · exact consistent_issue _ hs
  · exact consistent_endStream _ _ hs
  · exact consistent_issue _ hs
  · exact consistent_issue _ hs

theorem consistent_openStream {s : State} (bs : List Byte) (hc : Consistent s) : Consistent (openStream bs s) := by
  unfold openStream
  split
  next hready => exact consistent_issue _ ((ready_iff s).mp hready).1
  next => exact hc

theorem consistent_accept {s : State} {op : Op} {cmd : BitVec 10} (hcmd : latchedCommand op cmd) (hc : Consistent s) :
    Consistent (accept op cmd s) := by
  unfold accept
  split
  next hready =>
    refine consistent_startOp hcmd fun st h => ?_
    cases ((ready_iff s).mp hready).2.symm.trans h
  next => exact hc

/-- What the host may ask of the engine keeps the invariant. -/
theorem exec_keeps_consistent {i : Instr} {s t : State} (hi : internal i = false) (hc : Consistent s)
    (h : exec i s = .next t) : Consistent t := by
  cases i with
  | state db | facadeState db =>
    cases h
    exact consistent_accept ⟨db, rfl⟩ hc
  | writeInstr _ | writeData _ | clearDisplay | returnHome | facadeWrite _ _ =>
    cases h
    exact consistent_accept rfl hc
  | writeByteBlocking _ | writeBytes _ =>
    cases h
    exact consistent_openStream _ hc
  | writeChar c =>
    simp only [exec, execWriteChar] at h
    split at h
    · cases h
      exact consistent_openStream _ hc
    · cases h
  | decodeStatus _ | split _ | join _ _ =>
    cases h
    exact hc
  | reservedDataRead _ => cases h
  | rsLow | rsHigh | rwLow | rwHigh | eLow | eHigh | delayUs _ | busWrite _ | busRead _ | fail _ | pulseEnable =>
    cases hi

theorem present_keeps_consistent {i : Instr} {s t : State} (hc : Consistent s) (h : present i s = .next t) :
    Consistent t := by
  cases hi : internal i with
  | true =>
    rw [present_of_internal s hi] at h
    cases h
  | false =>
    rw [present_of_not_internal s hi] at h
    exact exec_keeps_consistent hi hc h

theorem serve_keeps_consistent {r : Request} {s t : State} (hc : Consistent s) (h : serve r s = .next t) :
    Consistent t := by
  cases r with
  | code c =>
    simp only [serve] at h
    split at h
    · exact present_keeps_consistent hc h
    · cases h
  | call i => exact present_keeps_consistent hc h
  | new =>
    cases h
    exact consistent_of_idle rfl rfl
  | facadeNew | release | wait =>
    cases h
    exact hc

theorem idleStep_keeps_consistent {s t : State} (hs : s.seq = .idle) (h : idleStep s = .next t) : Consistent t := by
  unfold idleStep at h
  split at h
  next st _ =>
    cases h
    exact consistent_streamTurn st hs
  next hstream =>
    split at h
    next =>
      cases h
      exact consistent_of_idle hs hstream
    next r rest _ => exact serve_keeps_consistent (s := { s with host := rest }) (consistent_of_idle hs hstream) h

theorem step_of_idle {s : State} (hs : s.seq = .idle) : step s = idleStep s := by
  simp only [step, hs]

/-- Settles O41: a step of a running operation by the rows of its table (`seqStep_keeps_consistent`), a step in Idle by the
operations and streams it may start (`idleStep_keeps_consistent`). -/
theorem stepKeepsConsistent : Obligations.StepKeepsConsistent := by
  intro s t hc h
  cases hs : s.seq with
  | idle => exact idleStep_keeps_consistent hs ((step_of_idle hs).symm.trans h)
  | run op upc => exact seqStep_keeps_consistent hs hc h

/-- Settles O42: the invariant keeps the step counter within its table, and every row gives a next state. -/
theorem runningOperationNeverStops : Obligations.RunningOperationNeverStops := by
  intro s op upc hc hs
  obtain ⟨hat, -⟩ := hc
  obtain ⟨hle, -⟩ := hat op upc hs
  obtain ⟨m, hm⟩ := exists_row hle
  obtain ⟨t, ht, -⟩ := exists_rowStep hs hm
  exact ⟨t, ht⟩

/-- Settles O40. -/
theorem consistentAtReset : Obligations.ConsistentAtReset := consistent_of_idle rfl rfl

end Sys2Proof.Machine

/-! PROOFS. The latches and the history, the host's side of a step, the word placed, reset
(10_state.md R21, R22, R26, R38, R44). -/

namespace Sys2Proof.Machine

/-! ### The latches follow the history -/

theorem recorded_of_rsAfter_ne {i : Instr} {q : Level} (v : Nibble) (h : rsAfter i q ≠ q) :
    .rsLow ∈ recorded v i ∨ .rsHigh ∈ recorded v i := by
  unfold rsAfter at h
  split at h <;> simp_all [recorded]

theorem recorded_of_rwAfter_ne {i : Instr} {q : Level} (v : Nibble) (h : rwAfter i q ≠ q) :
    .rwLow ∈ recorded v i ∨ .rwHigh ∈ recorded v i := by
  unfold rwAfter at h
  split at h <;> simp_all [recorded]

theorem recorded_of_enAfter_ne {i : Instr} {q : Level} (v : Nibble) (h : enAfter i q ≠ q) :
    .eLow ∈ recorded v i ∨ .eHigh ∈ recorded v i := by
  unfold enAfter at h
  split at h <;> simp_all [recorded]

theorem recorded_of_dbAfter_ne {i : Instr} {q : Option Nibble} (v : Nibble) (h : dbAfter i q ≠ q) :
    ∃ w, .busWrite w ∈ recorded v i := by
  unfold dbAfter at h
  split at h <;> simp_all [recorded]

theorem line_of_dbLost_ne {i : Instr} {l : Line} {q : Option Nibble} (h : dbLost i l q ≠ q) : l = .bus := by
  unfold dbLost at h
  split at h
  · exact absurd rfl h
  · rfl
  · exact absurd rfl h

/-- The events gained say why a line's latch has changed: that line's action or the marker of its failure (R21, R22). -/
structure LatchesExplained (es : List Event) (s t : State) : Prop where
  rs : t.rsQ ≠ s.rsQ → .rsLow ∈ es ∨ .rsHigh ∈ es ∨ .fail .rs ∈ es
  rw : t.rwQ ≠ s.rwQ → .rwLow ∈ es ∨ .rwHigh ∈ es ∨ .fail .rw ∈ es
  en : t.enQ ≠ s.enQ → .eLow ∈ es ∨ .eHigh ∈ es ∨ .fail .en ∈ es
  db : t.dbQ ≠ s.dbQ → (∃ v, .busWrite v ∈ es) ∨ .fail .bus ∈ es

theorem LatchesExplained.of_latches_eq {s t : State} (es : List Event) (hrs : t.rsQ = s.rsQ) (hrw : t.rwQ = s.rwQ)
    (hen : t.enQ = s.enQ) (hdb : t.dbQ = s.dbQ) : LatchesExplained es s t :=
  ⟨(absurd hrs ·), (absurd hrw ·), (absurd hen ·), (absurd hdb ·)⟩

theorem latchesExplained_afterOk (i : Instr) (v : Nibble) (s : State) :
    LatchesExplained (recorded v i) s (afterOk i v s) where
  rs h := (recorded_of_rsAfter_ne v h).imp_right .inl
  rw h := (recorded_of_rwAfter_ne v h).imp_right .inl
  en h := (recorded_of_enAfter_ne v h).imp_right .inl
  db h := .inl (recorded_of_dbAfter_ne v h)

theorem latchesExplained_afterErr (i : Instr) (l : Line) (x : ErrInfos) (s : State) :
    LatchesExplained (recorded 0 i ++ [.fail l]) s (afterErr i l x s) where
  rs h := by
    have hl : l = .rs := by_contra fun hne => h (if_neg hne)
    simp [hl]
  rw h := by
    have hl : l = .rw := by_contra fun hne => h (if_neg hne)
    simp [hl]
  en h := by
    have hl : l = .en := by_contra fun hne => h (if_neg hne)
    simp [hl]
  db h := by
    have hl : l = .bus := line_of_dbLost_ne h
    simp [hl]

/-- What is seen from outside is the same: nothing recorded, no latch changed. -/
theorem explained_of_outside_eq {s t : State} (h : t.outside = s.outside) : gained s t [] ∧ LatchesExplained [] s t := by
  obtain ⟨hrs, hrw, hen, hdb, htrace, -⟩ := outside_eq_iff.mp h
  exact ⟨htrace.trans (List.append_nil _).symm, .of_latches_eq [] hrs hrw hen hdb⟩

theorem RowStep.explained {op : Op} {upc : BitVec 5} {s t : State} (h : RowStep op upc s t) :
    ∃ es, gained s t es ∧ LatchesExplained es s t := by
  cases h with
  | acted m i l v =>
    obtain ⟨hrs, hrw, hen, hdb⟩ := latchesExplained_afterOk i (nibbleOf v) s
    exact ⟨recorded (nibbleOf v) i, by simp [gained, afterOk], by simpa using hrs, by simpa using hrw,
      by simpa using hen, by simpa using hdb⟩
  | failed i l x => exact ⟨_, rfl, latchesExplained_afterErr i l x s⟩
  | delayed => exact ⟨[.delayUs 1], rfl, .of_latches_eq _ rfl rfl rfl rfl⟩
  | assembled => exact ⟨[], explained_of_outside_eq (assembleStatus_outside op upc s)⟩
  | finished => exact ⟨[], explained_of_outside_eq (endOp_outside .success s)⟩

/-- Settles O47, by the kind of row in a running operation (`RowStep.explained`) and by Idle doing nothing that the outside
sees (`idleStep_outside`). -/
theorem latchesFollowTheHistory : Obligations.LatchesFollowTheHistory := by
  intro s t hnew h
  have hex : ∃ es, gained s t es ∧ LatchesExplained es s t := by
    cases hs : s.seq with
    | idle => exact ⟨[], explained_of_outside_eq (idleStep_outside (hnew hs) ((step_of_idle hs).symm.trans h))⟩
    | run op upc => exact (rowStep_of_step hs h).2.explained
  obtain ⟨es, hgained, hrs, hrw, hen, hdb⟩ := hex
  exact ⟨es, hgained, hrs, hrw, hen, hdb⟩

/-! ### Idle -/

theorem step_of_move {s : State} {r : Request} {rest : List Request} (hs : s.seq = .idle) (hst : s.stream = none)
    (hhost : s.host = r :: rest) : step s = serve r { s with host := rest } := by
  rw [step_of_idle hs]
  simp only [idleStep, hst, hhost]

theorem step_of_no_move {s : State} (hs : s.seq = .idle) (hst : s.stream = none) (hhost : s.host = []) :
    step s = .next s := by
  rw [step_of_idle hs]
  simp only [idleStep, hst, hhost]

theorem serve_code {c : Code} {i : Instr} (s : State) (h : c.decode = .ok i) : serve (.code c) s = present i s := by
  simp only [serve, h]

theorem serve_undecoded {c : Code} {why : Undecoded} (s : State) (h : c.decode = .error why) :
    serve (.code c) s = .refused (.undecoded why) := by
  simp only [serve, h]

/-- NEW leaves the environment's answers where they are, and any other step in Idle is not seen from outside. -/
theorem idleStep_draws_nothing {s t : State} (hs : s.seq = .idle) (h : step s = .next t) :
    t.env = s.env ∧ t.envRest = s.envRest ∧ t.draws = s.draws := by
  by_cases hnew : s.stream = none ∧ s.host.head? = some .new
  · obtain ⟨hst, hhead⟩ := hnew
    obtain ⟨rest, hhost⟩ := List.head?_eq_some_iff.mp hhead
    rw [step_of_move hs hst hhost] at h
    cases h
    exact ⟨rfl, rfl, rfl⟩
  · have ho := idleStep_outside (fun hst hhead => hnew ⟨hst, hhead⟩) ((step_of_idle hs).symm.trans h)
    obtain ⟨-, -, -, -, -, henv⟩ := outside_eq_iff.mp ho
    exact henv

/-- Settles O36: the answers by `idleStep_draws_nothing`, the history and the lines by `idleStep_outside`. -/
theorem idlePerformsNoAction : Obligations.IdlePerformsNoAction := by
  intro s t hs h
  obtain ⟨henv, hrest, hdraws⟩ := idleStep_draws_nothing hs h
  refine ⟨henv, hrest, hdraws, fun hnew => ?_⟩
  obtain ⟨hrs, hrw, hen, hdb, htrace, -⟩ := outside_eq_iff.mp (idleStep_outside hnew ((step_of_idle hs).symm.trans h))
  exact ⟨htrace, hrs, hrw, hen, hdb⟩

/-- Settles O35: the host's move is served, and what it asks for is presented or refused. -/
theorem stepRunsPresentedInstruction : Obligations.StepRunsPresentedInstruction := by
  intro s rest hs hst
  refine ⟨fun c i hhost hc hi => ?_, fun i hhost hi => ?_, fun c i hhost hc hi => ?_, fun i hhost hi => ?_,
    fun c why hhost hc => ?_, step_of_no_move hs hst⟩
  · rw [step_of_move hs hst hhost, serve_code _ hc, present_of_not_internal _ hi]
  · exact (step_of_move hs hst hhost).trans (present_of_not_internal _ hi)
  · rw [step_of_move hs hst hhost, serve_code _ hc, present_of_internal _ hi]
  · exact (step_of_move hs hst hhost).trans (present_of_internal _ hi)
  · rw [step_of_move hs hst hhost, serve_undecoded _ hc]

/-- Settles O39: reset is idle with no move of the host, so each step of a run leaves it. -/
theorem resetValues : Obligations.ResetValues := by
  refine ⟨rfl, rfl, rfl, rfl, rfl, rfl, rfl, rfl, rfl, fun n => ?_⟩
  induction n with
  | zero => rfl
  | succ n ih => exact (run_next n (step_of_no_move rfl rfl rfl)).trans ih

/-! ### Commands -/

theorem writeWord_instr_eq (b : Byte) : writeWord .instr b = b.setWidth 10 := by
  revert b
  decide

theorem writeWord_data_eq (b : Byte) : writeWord .data b = 0x200#10 ||| b.setWidth 10 := by
  revert b
  decide

theorem stateWord_eq (db : Byte) : stateWord db = 0x100#10 ||| db.setWidth 10 := by
  revert db
  decide

/-- Settles O18: each command is `accept` of its operation and its word. -/
theorem commandsAccepted : Obligations.CommandsAccepted := by
  intro s
  refine ⟨fun hready => ⟨fun db => ?_, fun b => ?_, fun b => ?_, ?_, ?_⟩, fun hready b => ?_⟩
  · rw [← stateWord_eq]
    exact congrArg Host.Outcome.next (accept_of_ready hready)
  · rw [← writeWord_instr_eq]
    exact congrArg Host.Outcome.next (accept_of_ready hready)
  · rw [← writeWord_data_eq]
    exact congrArg Host.Outcome.next (accept_of_ready hready)
  · exact congrArg Host.Outcome.next (accept_of_ready hready)
  · exact congrArg Host.Outcome.next (accept_of_ready hready)
  · have hstays (op : Op) (c : BitVec 10) :
        (.next (accept op c s) : Host.Outcome State Fault Refusal) = .next s :=
      congrArg Host.Outcome.next (accept_of_not_ready hready)
    exact ⟨hstays _ _, hstays _ _, hstays _ _, hstays _ _, hstays _ _⟩

/-! ### A row of a running operation -/

theorem yieldedNibble_of_out {t : State} {v : Nibble} (h : t.out = some (.nibble v)) : yieldedNibble t = v := by
  simp [yieldedNibble, h]

/-- Settles O38, from the primitive of the row followed by `afterAction` (`step_of_exec`). -/
theorem stepRunsTableRow : Obligations.StepRunsTableRow := by
  intro s t op upc m i hs hm hi h
  have hstep := step_of_exec hs hm hi h
  refine ⟨fun hidle => ?_, fun hrun => ⟨fun hlo hhi => ?_, fun v hv hlo => ?_, fun v hv hhi => ?_⟩⟩
  · rw [hstep, afterAction_of_idle hidle]
  all_goals rw [hstep, afterAction_of_run hrun, goOn]
  · cases m with
    | readLo => exact absurd rfl hlo
    | readHi => exact absurd rfl hhi
    | _ => rfl
  · subst hlo
    rw [storeYield, yieldedNibble_of_out hv]
  · subst hhi
    rw [storeYield, yieldedNibble_of_out hv]

/-! ### The word placed -/

theorem presented_of_decodeTableWord {nbits w : Nat} {i : Instr} (h : decodeTableWord nbits w = some i) :
    ∃ c : Code, presented nbits w = .code c ∧ c.decode = .ok i := by
  unfold decodeTableWord at h
  unfold presented
  split at h
  next => cases h
  next c hc =>
    split at h
    next j hj =>
      cases h
      exact ⟨c, by simp only [hc], hj⟩
    next => cases h

theorem withFetchWord_eq {nbits w : Nat} {i : Instr} (s : State) (h : decodeTableWord nbits w = some i) :
    s.withFetchWord nbits w = placeInstr i (presented nbits w) s := by
  simp only [State.withFetchWord, placeWord, h]

theorem placeInstr_of_not_internal {i : Instr} (r : Request) (s : State) (h : internal i = false) :
    placeInstr i r s = withMove r s := by
  cases i with
  | rsLow | rsHigh | rwLow | rwHigh | eLow | eHigh | delayUs _ | busWrite _ | busRead _ | fail _ | pulseEnable => cases h
  | _ => rfl

theorem placeInstr_of_actionRow {i : Instr} {op : Op} {upc : BitVec 5} (r : Request) (s : State)
    (h : actionRow i = some (op, upc)) : placeInstr i r s = atRow op upc s := by
  simp only [placeInstr, h]

theorem placeInstr_delayUs {n : Nibble} (r : Request) (s : State) (h : n ≠ 1) :
    placeInstr (.delayUs n) r s = withMove r s := by
  have hrow : actionRow (.delayUs n) = none := if_neg h
  simp only [placeInstr, hrow]

/-- A word that is the host's next move is presented in a machine made ready. -/
theorem step_withMove_code {c : Code} {i : Instr} (s : State) (h : c.decode = .ok i) :
    step (withMove (.code c) s) = present i { s with seq := .idle, stream := none } := by
  rw [step_of_move (rest := s.host) rfl rfl rfl, serve_code _ h]
  rfl

theorem lo4_join (l h : Nibble) : lo4 (join l h) = l := by
  revert l h
  decide

/-- The row an action is placed at performs that action. -/
theorem actionRow_performs {i : Instr} {op : Op} {upc : BitVec 5} (s : State) (h : actionRow i = some (op, upc)) :
    ∃ m i', stepTable op upc = some m ∧ microInstr m (atRow op upc s) = some i' ∧ ∀ u, exec i' u = exec i u := by
  cases i with
  | rsLow | rsHigh | rwLow | rwHigh | eLow | eHigh | busRead _ =>
    cases h
    exact ⟨_, _, rfl, rfl, fun _ => rfl⟩
  | delayUs n =>
    simp only [actionRow] at h
    split at h
    next hn =>
      cases h
      cases hn
      exact ⟨_, _, rfl, rfl, fun _ => rfl⟩
    next => cases h
  | busWrite v =>
    cases h
    refine ⟨.writeLo, .busWrite (lo4 (join v 0)), rfl, rfl, fun _ => ?_⟩
    rw [lo4_join]
  | _ => cases h

theorem failingRow_line (l : Line) : ∃ m, stepTable .state (failingRow l) = some m ∧ microLine m = some l := by
  cases l <;> exact ⟨_, rfl, rfl⟩

/-- A poll's row that acts on `l`, the next answer an error, fails on `l`. -/
theorem step_failingRow (l : Line) (r : Request) (s : State) :
    ∃ t e x, step (placeInstr (.fail l) r s) = .next t ∧ isAction e = true ∧ t.trace = s.trace ++ [e, .fail l] ∧
      t.res = some (.failed (failureOn l x)) ∧ t.seq = .idle := by
  obtain ⟨m, hm, hl⟩ := failingRow_line l
  obtain ⟨i, hi, hil⟩ := microInstr_of_microLine hl (placeInstr (.fail l) r s)
  obtain ⟨e, he, hrec⟩ := recorded_of_actionLine hil 0
  refine ⟨_, e, _, step_of_err (s := placeInstr (.fail l) r s) (op := .state) rfl hm hi hil rfl, he, ?_, rfl, rfl⟩
  simp only [afterErr, hrec]
  rfl

/-- Settles O37: where the word is placed, by what it decodes to. -/
theorem placedWordIsNext : Obligations.PlacedWordIsNext := by
  intro s nbits w i h
  obtain ⟨c, hc, hdec⟩ := presented_of_decodeTableWord h
  rw [withFetchWord_eq s h]
  refine ⟨fun hi => ?_, fun op upc hrow => ?_, fun hp => ?_, fun l hf => ?_, fun n hd hn => ?_⟩
  · rw [placeInstr_of_not_internal _ s hi, hc, step_withMove_code s hdec, present_of_not_internal _ hi]
  · rw [placeInstr_of_actionRow _ s hrow]
    exact ⟨atRow_seq op upc s, actionRow_performs s hrow⟩
  · subst hp
    rfl
  · subst hf
    exact step_failingRow l _ s
  · subst hd
    rw [placeInstr_delayUs _ s hn, hc, step_withMove_code s hdec, present_of_internal _ rfl]

end Sys2Proof.Machine

/-! PROOFS. Two runs of one operation, step by step side by side (10_state.md R24, R25). -/

namespace Sys2Proof.Machine

/-- A step that does not end the operation was not its last. -/
theorem RowStep.upc_lt {op : Op} {upc : BitVec 5} {s t : State} (h : RowStep op upc s t)
    (hle : upc.toNat ≤ lastStep op) (hrun : t.seq ≠ .idle) : upc.toNat < lastStep op := by
  cases h with
  | acted _ _ _ _ _ _ _ hn =>
    obtain ⟨h12, h25⟩ := fallibleLine_ne hn
    exact lt_lastStep hle h12 h25
  | delayed _ _ h12 h25 => exact lt_lastStep hle h12 h25
  | failed | finished => exact absurd rfl hrun
  | assembled hn =>
    obtain ⟨r, ha, -⟩ | ⟨kind, b, rfl, -⟩ := assembleStatus_cases op upc s
    · exact absurd (congrArg State.seq ha) hrun
    · simp [hn, lastStep]

theorem runToIdle_of_idle {s : State} (fuel : Nat) (hs : s.seq = .idle) : runToIdle fuel s = .next s := by
  cases fuel with
  | zero => rfl
  | succ n => simp only [runToIdle, hs]

theorem runToIdle_of_step {s t : State} {op : Op} {upc : BitVec 5} (fuel : Nat) (hs : s.seq = .run op upc)
    (h : step s = .next t) : runToIdle (fuel + 1) s = runToIdle fuel t := by
  simp only [runToIdle, hs, h]

theorem opSteps_eq (op : Op) : opSteps op = lastStep op + 1 := by cases op <;> rfl

/-! ### The same row in two states -/

section TwoStates

variable {op : Op} {upc : BitVec 5} {m : Micro} {i : Instr} {l : Line} {v : Nibble} {s₁ s₂ : State}

/-- The nibble latches are put on the bus in the data phase only. -/
theorem dataPhase_of_write (hm : stepTable op upc = some m) (h : m = .writeLo ∨ m = .writeHi) : 12 < upc.toNat := by
  obtain ⟨-, hp⟩ | ⟨-, -, -, hgt, -⟩ := stepTable_cases hm
  · unfold pollTable at hp
    split at hp <;> cases hp <;> simp at h
  · exact hgt

/-- A row performs the same primitive in two states whose nibble latches agree once the poll has read them. -/
theorem microInstr_congr (hm : stepTable op upc = some m) (hlo : 7 ≤ upc.toNat → s₁.loQ = s₂.loQ)
    (hhi : 12 ≤ upc.toNat → s₁.hiQ = s₂.hiQ) : microInstr m s₁ = microInstr m s₂ := by
  cases m with
  | writeLo =>
    have := dataPhase_of_write hm (.inl rfl)
    simp only [microInstr, hlo (by omega)]
  | writeHi =>
    have := dataPhase_of_write hm (.inr rfl)
    simp only [microInstr, hhi (by omega)]
  | _ => rfl

theorem rwHigh_of_recorded (h : .rwHigh ∈ recorded v i) : i = .rwHigh := by
  cases i <;> simp [recorded] at h ⊢

theorem eHigh_of_recorded (h : .eHigh ∈ recorded v i) : i = .eHigh := by
  cases i <;> simp [recorded] at h ⊢

/-- Two levels that agree unless `e` is absent agree, unless it is still absent, after events that keep them equal and make
them equal with `e`. -/
theorem eq_or_notMem_append {p₁ p₂ q₁ q₂ : Level} {e : Event} {es new : List Event} (h : p₁ = p₂ ∨ e ∉ es)
    (hkeep : p₁ = p₂ → q₁ = q₂) (hnew : e ∈ new → q₁ = q₂) : q₁ = q₂ ∨ e ∉ es ++ new := by
  by_cases hq : q₁ = q₂
  · exact .inl hq
  · exact .inr fun hmem => (List.mem_append.mp hmem).elim (h.resolve_left (hq ∘ hkeep)) (hq ∘ hnew)

end TwoStates

/-! ### Two runs side by side -/

theorem gained_append {s t u : State} {es new : List Event} (h : gained s t es) (hu : u.trace = t.trace ++ new) :
    gained s u (es ++ new) := by
  unfold gained at h ⊢
  rw [hu, h, List.append_assoc]

/-- From `s₁` and `s₂` two runs of one operation have come to `t₁` and `t₂`: the same events gained and answers drawn, the
same step; RW and E at the same level once driven, RS from step 1 on, the nibble latches once read; the same result at the
end. -/
structure Alike (es : List Event) (s₁ s₂ t₁ t₂ : State) : Prop where
  gained₁ : gained s₁ t₁ es
  gained₂ : gained s₂ t₂ es
  env : t₁.env = t₂.env
  envRest : t₁.envRest = t₂.envRest
  draws : t₁.draws = t₂.draws
  seq : t₁.seq = t₂.seq
  rw : t₁.rwQ = t₂.rwQ ∨ .rwHigh ∉ es
  en : t₁.enQ = t₂.enQ ∨ .eHigh ∉ es
  res : t₁.seq = .idle → t₁.res = t₂.res
  rs : (∀ op upc, t₁.seq = .run op upc → upc.toNat ≠ 0) → t₁.rsQ = t₂.rsQ
  lo : ∀ op upc, t₁.seq = .run op upc → 7 ≤ upc.toNat → t₁.loQ = t₂.loQ
  hi : ∀ op upc, t₁.seq = .run op upc → 12 ≤ upc.toNat → t₁.hiQ = t₂.hiQ

namespace Alike

variable {op : Op} {upc : BitVec 5} {m : Micro} {i : Instr} {l : Line} {es : List Event} {s₁ s₂ t₁ t₂ : State}

theorem rs_of_run (h : Alike es s₁ s₂ t₁ t₂) (hs : t₁.seq = .run op upc) (h0 : upc.toNat ≠ 0) : t₁.rsQ = t₂.rsQ := by
  refine h.rs fun o u hrun => ?_
  cases hs.symm.trans hrun
  exact h0

theorem answer (h : Alike es s₁ s₂ t₁ t₂) : t₁.answer = t₂.answer := answerAt_congr h.env h.envRest h.draws 0

theorem of_ok (h : Alike es s₁ s₂ t₁ t₂) (hs : t₁.seq = .run op upc) (hle : upc.toNat ≤ lastStep op)
    (hm : stepTable op upc = some m) (hi : microInstr m t₁ = some i) (v : Nibble) :
    Alike (es ++ recorded v i) s₁ s₂ (goOn m op upc (afterOk i v t₁)) (goOn m op upc (afterOk i v t₂)) where
  gained₁ := gained_append h.gained₁ (by simp [afterOk])
  gained₂ := gained_append h.gained₂ (by simp [afterOk])
  env := by simp [afterOk, h.env]
  envRest := by simp [afterOk, h.envRest]
  draws := by simp [afterOk, h.draws]
  seq := rfl
  rw := by
    simp only [goOn_rwQ, afterOk]
    refine eq_or_notMem_append h.rw (congrArg (rwAfter i)) fun hmem => ?_
    rw [rwHigh_of_recorded hmem]
    rfl
  en := by
    simp only [goOn_enQ, afterOk]
    refine eq_or_notMem_append h.en (congrArg (enAfter i)) fun hmem => ?_
    rw [eHigh_of_recorded hmem]
    rfl
  res := nofun
  rs _ := by
    simp only [goOn_rsQ, afterOk]
    by_cases h0 : upc.toNat = 0
    · simp only [rsAfter_of_row hm hi, if_pos h0]
    · rw [h.rs_of_run hs h0]
  lo o u hrun hu := by
    cases hrun
    rw [upc_toNat_succ hle] at hu
    simp only [goOn_loQ]
    split
    next hread =>
      subst hread
      cases hi
      rfl
    next hread =>
      have := mt (readLo_iff_of_row hm).mpr hread
      exact h.lo op upc hs (by omega)
  hi o u hrun hu := by
    cases hrun
    rw [upc_toNat_succ hle] at hu
    simp only [goOn_hiQ]
    split
    next hread =>
      subst hread
      cases hi
      rfl
    next hread =>
      have := mt (readHi_iff_of_row hm).mpr hread
      exact h.hi op upc hs (by omega)

theorem of_err (h : Alike es s₁ s₂ t₁ t₂) (hs : t₁.seq = .run op upc) (hl : actionLine i = some l)
    (hn : fallibleLine upc.toNat = some l) (x : ErrInfos) :
    Alike (es ++ (recorded 0 i ++ [.fail l])) s₁ s₂ (afterErr i l x t₁) (afterErr i l x t₂) where
  gained₁ := gained_append h.gained₁ rfl
  gained₂ := gained_append h.gained₂ rfl
  env := congrArg List.tail h.env
  envRest := h.envRest
  draws := congrArg (· + 1) h.draws
  seq := rfl
  rw := by
    refine eq_or_notMem_append h.rw (fun he => by simp [afterErr, he]) fun hmem => ?_
    have hi : i = .rwHigh := rwHigh_of_recorded (v := 0) (by simpa using hmem)
    subst hi
    cases hl
    rfl
  en := by
    refine eq_or_notMem_append h.en (fun he => by simp [afterErr, he]) fun hmem => ?_
    have hi : i = .eHigh := eHigh_of_recorded (v := 0) (by simpa using hmem)
    subst hi
    cases hl
    rfl
  res _ := rfl
  rs _ := by
    by_cases h0 : upc.toNat = 0
    · rw [h0] at hn
      cases hn
      rfl
    · simp only [afterErr, h.rs_of_run hs h0]
  lo := nofun
  hi := nofun

theorem of_delay (h : Alike es s₁ s₂ t₁ t₂) (hs : t₁.seq = .run op upc) (hle : upc.toNat ≤ lastStep op)
    (hm : stepTable op upc = some (.action (.delayUs 1))) (hn : fallibleLine upc.toNat = none) :
    Alike (es ++ [.delayUs 1]) s₁ s₂ (goOn (.action (.delayUs 1)) op upc (delayUs 1 t₁))
      (goOn (.action (.delayUs 1)) op upc (delayUs 1 t₂)) where
  gained₁ := gained_append h.gained₁ rfl
  gained₂ := gained_append h.gained₂ rfl
  env := h.env
  envRest := h.envRest
  draws := h.draws
  seq := rfl
  rw := eq_or_notMem_append h.rw id (by simp)
  en := eq_or_notMem_append h.en id (by simp)
  res := nofun
  rs _ := by
    refine h.rs_of_run hs fun h0 => ?_
    rw [h0] at hn
    cases hn
  lo o u hrun hu := by
    cases hrun
    rw [upc_toNat_succ hle] at hu
    have := mt (readLo_iff_of_row hm).mpr nofun
    exact h.lo op upc hs (by omega)
  hi o u hrun hu := by
    cases hrun
    rw [upc_toNat_succ hle] at hu
    have := mt (readHi_iff_of_row hm).mpr nofun
    exact h.hi op upc hs (by omega)

/-- An operation that ends in both runs without an action, with the same result. -/
theorem of_end (h : Alike es s₁ s₂ t₁ t₂) (hs : t₁.seq = .run op upc) (h0 : upc.toNat ≠ 0) (r : Result) :
    Alike es s₁ s₂ (endOp r t₁) (endOp r t₂) where
  gained₁ := h.gained₁
  gained₂ := h.gained₂
  env := h.env
  envRest := h.envRest
  draws := h.draws
  seq := rfl
  rw := h.rw
  en := h.en
  res _ := rfl
  rs _ := h.rs_of_run hs h0
  lo := nofun
  hi := nofun

/-- Step 12 joins the same byte in both runs: the poll returns it, a busy write ends, and a write that goes on holds its
operand. -/
theorem of_assemble (h : Alike es s₁ s₂ t₁ t₂) (hs : t₁.seq = .run op upc) (hn : upc.toNat = 12) :
    Alike es s₁ s₂ (assembleStatus op upc t₁) (assembleStatus op upc t₂) := by
  have h0 : upc.toNat ≠ 0 := by omega
  have hv : join t₂.loQ t₂.hiQ = join t₁.loQ t₁.hiQ := by
    rw [h.lo op upc hs (by omega), h.hi op upc hs (by omega)]
  have hsr : Alike es s₁ s₂ { t₁ with sr := join t₁.loQ t₁.hiQ } { t₂ with sr := join t₁.loQ t₁.hiQ } :=
    ⟨h.gained₁, h.gained₂, h.env, h.envRest, h.draws, h.seq, h.rw, h.en, h.res, h.rs, h.lo, h.hi⟩
  cases op with
  | state =>
    simp only [assembleStatus, hv]
    exact hsr.of_end hs h0 _
  | write kind b =>
    simp only [assembleStatus, hv]
    split
    · exact hsr.of_end hs h0 _
    · exact ⟨h.gained₁, h.gained₂, h.env, h.envRest, h.draws, rfl, h.rw, h.en, nofun, fun _ => h.rs_of_run hs h0,
        fun _ _ _ _ => rfl, fun _ _ _ _ => rfl⟩

/-- One step of each run keeps them alike. -/
theorem of_step (h : Alike es s₁ s₂ t₁ t₂) (hs : t₁.seq = .run op upc) (hle : upc.toNat ≤ lastStep op) :
    ∃ u₁ u₂ es', step t₁ = .next u₁ ∧ step t₂ = .next u₂ ∧ Alike es' s₁ s₂ u₁ u₂ := by
  have hs₂ : t₂.seq = .run op upc := h.seq.symm.trans hs
  obtain ⟨m, hm⟩ := exists_row hle
  obtain ⟨l, hl, hn⟩ | ⟨rfl, hn, -, -⟩ | ⟨rfl, hn⟩ | ⟨rfl, hn⟩ := stepTable_kind hm
  · obtain ⟨i, hi, hil⟩ := microInstr_of_microLine hl t₁
    have hi₂ : microInstr m t₂ = some i := (microInstr_congr hm (h.lo op upc hs) (h.hi op upc hs)).symm.trans hi
    cases ha : t₁.answer with
    | ok v => exact ⟨_, _, _, step_of_ok hs hm hi hil ha, step_of_ok hs₂ hm hi₂ hil (h.answer.symm.trans ha),
        h.of_ok hs hle hm hi _⟩
    | err x => exact ⟨_, _, _, step_of_err hs hm hi hil ha, step_of_err hs₂ hm hi₂ hil (h.answer.symm.trans ha),
        h.of_err hs hil hn x⟩
  · exact ⟨_, _, _, step_of_delay hs hm, step_of_delay hs₂ hm, h.of_delay hs hle hm hn⟩
  · exact ⟨_, _, _, step_of_complete hs hm rfl, step_of_complete hs₂ hm rfl, h.of_assemble hs hn⟩
  · exact ⟨_, _, _, step_of_complete hs hm rfl, step_of_complete hs₂ hm rfl, h.of_end hs (by omega) _⟩

/-- Both runs come to idle within the steps left of the table. -/
theorem ends (fuel : Nat) (h : Alike es s₁ s₂ t₁ t₂) (hs : t₁.seq = .run op upc) (hle : upc.toNat ≤ lastStep op)
    (hfuel : lastStep op < upc.toNat + fuel) :
    ∃ u₁ u₂ es', runToIdle fuel t₁ = .next u₁ ∧ runToIdle fuel t₂ = .next u₂ ∧ u₁.seq = .idle ∧
      Alike es' s₁ s₂ u₁ u₂ := by
  induction fuel generalizing es t₁ t₂ upc with
  | zero => omega
  | succ fuel ih =>
    obtain ⟨u₁, u₂, es', h₁, h₂, hu⟩ := h.of_step hs hle
    rw [runToIdle_of_step fuel hs h₁, runToIdle_of_step fuel (h.seq.symm.trans hs) h₂]
    obtain ⟨-, hr⟩ := rowStep_of_step hs h₁
    obtain ⟨hidle, -⟩ | ⟨hrun, -⟩ := hr.ends_or_goes_on
    · exact ⟨u₁, u₂, es', runToIdle_of_idle fuel hidle, runToIdle_of_idle fuel (hu.seq.symm.trans hidle), hidle, hu⟩
    · have hlt := hr.upc_lt hle (by simp [hrun])
      have hsucc := upc_toNat_succ hle
      exact ih hu hrun (by omega) (by omega)

end Alike

/-- Settles O52: two runs begin alike, each with nothing gained, and stay so to idle (`Alike.ends`). -/
theorem operationsForgetThePast : Obligations.OperationsForgetThePast := by
  intro s₁ s₂ op c₁ c₂ henv hrest hdraws
  have hstart : Alike [] s₁ s₂ (startOp op c₁ s₁) (startOp op c₂ s₂) :=
    { gained₁ := (List.append_nil _).symm
      gained₂ := (List.append_nil _).symm
      env := henv
      envRest := hrest
      draws := hdraws
      seq := rfl
      rw := .inr List.not_mem_nil
      en := .inr List.not_mem_nil
      res := nofun
      rs := fun h => absurd rfl (h op 0 rfl)
      lo := fun _ _ hrun h7 => by cases hrun; cases h7
      hi := fun _ _ hrun h12 => by cases hrun; cases h12 }
  obtain ⟨t₁, t₂, es, h₁, h₂, hidle, h⟩ :=
    hstart.ends (opSteps op) rfl (Nat.zero_le _) (by simp [opSteps_eq])
  refine ⟨t₁, t₂, es, h₁, h₂, h.res hidle, h.seq, h.gained₁, h.gained₂, h.rs fun o u hrun => ?_, h.rw, h.en, h.env,
    h.envRest, h.draws⟩
  cases hidle.symm.trans hrun

end Sys2Proof.Machine

/-! PROOFS. The clocked rendering: one tick of each kind of row, the timer, the ports (10_state.md R32, R37, R38;
log entry 13). -/

namespace Sys2Proof.Machine

/-! ### One tick -/

section Tick

variable {p : PortsIn} {c : Clocked} {op : Op} {upc : BitVec 5} {m : Micro} {i : Instr} {l : Line} {s : State}

theorem rowOf_of_run (hs : s.seq = .run op upc) : rowOf s = stepTable op upc := by
  simp only [rowOf, hs]

theorem liveTick_of_run (hs : s.seq = .run op upc) (hm : stepTable op upc = some m) :
    liveTick p s = runTick p m s := by
  simp [liveTick, hs, rowOf_of_run hs, hm]

theorem liveTick_off_table (hs : s.seq = .run op upc) (hm : stepTable op upc = none) : liveTick p s = s := by
  simp [liveTick, hs, rowOf_of_run hs, hm]

theorem liveTick_of_idle (hs : s.seq = .idle) : liveTick p s = portTick p s := if_pos hs

theorem errPort_of_actionLine (p : PortsIn) (hl : actionLine i = some l) : errPort p i = lineErr p l := by
  cases i with
  | rsLow | rsHigh | rwLow | rwHigh | eLow | eHigh | busWrite _ | busRead _ =>
    cases hl
    rfl
  | _ => cases hl

theorem errsNow_of_row (hs : s.seq = .run op upc) (hm : stepTable op upc = some m) (hi : microInstr m s = some i) :
    errsNow p s = errPort p i := by
  simp only [errsNow, rowOf_of_run hs, hm, hi]

theorem microLine_of_row {op : Op} {upc : BitVec 5} {m : Micro} (hm : stepTable op upc = some m) :
    microLine m = fallibleLine upc.toNat := by
  obtain ⟨l, hl, hn⟩ | ⟨rfl, hn, -⟩ | ⟨rfl, hn⟩ | ⟨rfl, hn⟩ := stepTable_kind hm
  · exact hl.trans hn.symm
  · exact hn.symm
  · rw [hn]
    rfl
  · rw [hn]
    rfl

/-- A fallible row takes one tick: a step with the input ports' answer (R37). -/
theorem runTick_of_fallible (hi : microInstr m s = some i) (hl : actionLine i = some l) :
    runTick p m s = settled (step { s with env := portAnswer p i :: s.env }) s := by
  unfold runTick
  rw [hi]
  cases i with
  | delayUs _ => cases hl
  | _ => rfl

/-! ### A delay -/

/-- The state with a delay of 1 recorded and its timer loaded (R32). -/
def delayLoaded (s : State) : State := { s.record (.delayUs 1) with tmr := Config.clkPerUs }

theorem delayLoaded_tmr_ne_zero (s : State) : (delayLoaded s).tmr ≠ 0 := Nat.succ_ne_zero _

/-- The first tick of a delay loads the timer and counts like the others. -/
theorem delayTick_loads (m : Micro) (h : s.tmr = 0) : delayTick m 1 s = delayTick m 1 (delayLoaded s) := by
  have hclk : Config.clkPerUs ≠ 0 := Nat.succ_ne_zero _
  simp [delayTick, h, delayLoaded, hclk]

/-- A tick within a delay counts the timer down. -/
theorem delayTick_counts (m : Micro) {k : Nat} (h : s.tmr = k + 2) : delayTick m 1 s = { s with tmr := k + 1 } := by
  simp [delayTick, h]

/-- The tick that brings the timer to 0 goes on to the next step. -/
theorem delayTick_ends (n : Nibble) (hs : s.seq = .run op upc) (h : s.tmr = 1) :
    delayTick (.action (.delayUs n)) 1 s = { s with tmr := 0, seq := .run op (upc + 1) } := by
  have hrun : { s with tmr := 0 }.seq = .run op upc := hs
  simp only [delayTick, h, one_ne_zero, if_false, le_refl, if_true]
  exact afterAction_of_run hrun

/-- What a tick of a delay leaves: the next step with the timer at 0, or the same row with the timer below `bound`. -/
def DelayTicked (op : Op) (upc : BitVec 5) (bound : Nat) (t : State) : Prop :=
  (t.tmr = 0 ∧ t.seq = .run op (upc + 1)) ∨ (t.tmr < bound ∧ t.seq = .run op upc)

theorem delayTicked_of_loaded (n : Nibble) (hs : s.seq = .run op upc) (h0 : s.tmr ≠ 0) :
    DelayTicked op upc s.tmr (delayTick (.action (.delayUs n)) 1 s) := by
  obtain h1 | h2 : s.tmr = 1 ∨ s.tmr = s.tmr - 2 + 2 := by omega
  · rw [delayTick_ends n hs h1]
    exact .inl ⟨rfl, rfl⟩
  · rw [delayTick_counts _ h2]
    exact .inr ⟨by dsimp only; omega, hs⟩

theorem delayTicked_delayTick (n : Nibble) (hs : s.seq = .run op upc) :
    DelayTicked op upc (max s.tmr Config.clkPerUs) (delayTick (.action (.delayUs n)) 1 s) := by
  by_cases h0 : s.tmr = 0
  · rw [delayTick_loads _ h0, h0, Nat.zero_max]
    exact delayTicked_of_loaded (s := delayLoaded s) n hs (delayLoaded_tmr_ne_zero s)
  · exact (delayTicked_of_loaded n hs h0).imp_right (And.imp_left lt_max_of_lt_left)

/-- A tick of a delay row gives no result and samples no error port. -/
theorem tick_of_delay (hrst : p.rst = false) (hs : c.core.seq = .run op upc)
    (hm : stepTable op upc = some (.action (.delayUs 1))) :
    tick p c = { core := delayTick (.action (.delayUs 1)) 1 c.core, resValid := false, resInfo := c.resInfo } := by
  have hlive : liveTick p c.core = delayTick (.action (.delayUs 1)) 1 c.core := liveTick_of_run hs hm
  have herr : errsNow p c.core = false := errsNow_of_row hs hm rfl
  have hrun : ((delayTick (.action (.delayUs 1)) 1 c.core).seq == .idle) = false := by
    obtain ⟨-, h⟩ | ⟨-, h⟩ := delayTicked_delayTick 1 hs <;> rw [h] <;> rfl
  simp only [tick, hrst, hlive, herr, hrun, Bool.and_false, Bool.false_eq_true, if_false]

/-- With the timer at `k + 1` a delay row takes `k + 1` more ticks. -/
theorem ticks_of_delay (hrst : p.rst = false) (hm : stepTable op upc = some (.action (.delayUs 1))) (k : Nat)
    (c : Clocked) (hs : c.core.seq = .run op upc) (h : c.core.tmr = k + 1) :
    ticks p (k + 1) c =
      { core := { c.core with tmr := 0, seq := .run op (upc + 1) }, resValid := false, resInfo := c.resInfo } := by
  induction k generalizing c with
  | zero =>
    rw [ticks, ticks, tick_of_delay hrst hs hm, delayTick_ends 1 hs h]
  | succ k ih =>
    rw [ticks, tick_of_delay hrst hs hm, delayTick_counts _ h]
    exact ih _ hs rfl

end Tick

/-- Settles O53: the first tick loads the timer (`delayTick_loads`), and the timer counts the ticks (`ticks_of_delay`). -/
theorem delayTakesClkPerUsTicks : Obligations.DelayTakesClkPerUsTicks := by
  intro p c op upc hrst htmr hs hm
  have hfirst : tick p c = tick p { c with core := delayLoaded c.core } := by
    rw [tick_of_delay hrst hs hm, tick_of_delay (c := { c with core := delayLoaded c.core }) hrst hs hm,
      delayTick_loads _ htmr]
  calc ticks p Config.clkPerUs c
      = ticks p Config.clkPerUsLessOne (tick p c) := rfl
    _ = ticks p Config.clkPerUs { c with core := delayLoaded c.core } := congrArg _ hfirst
    _ = _ := ticks_of_delay hrst hm Config.clkPerUsLessOne _ hs rfl
    _ = _ := by
      rw [← htmr]
      rfl

/-! ### The timer -/

theorem RowStep.tmr_eq {op : Op} {upc : BitVec 5} {s t : State} (h : RowStep op upc s t)
    (hm : stepTable op upc ≠ some (.action (.delayUs 1))) : t.tmr = s.tmr := by
  cases h with
  | acted => simp [afterOk]
  | failed | finished => rfl
  | delayed hd => exact absurd hd hm
  | assembled =>
    obtain ⟨r, ha, -⟩ | ⟨kind, b, -, -, ha⟩ := assembleStatus_cases op upc s <;> simp [ha]

/-- A tick of a running operation is a tick of a delay, or a step with some answer next. -/
theorem runTick_cases {op : Op} {upc : BitVec 5} {m : Micro} {s : State} (p : PortsIn) (hs : s.seq = .run op upc)
    (hm : stepTable op upc = some m) :
    (m = .action (.delayUs 1) ∧ runTick p m s = delayTick m 1 s) ∨
      ∃ env, RowStep op upc { s with env := env } (runTick p m s) := by
  have hsettled (env : List Answer) : RowStep op upc { s with env := env } (settled (step { s with env := env }) s) := by
    obtain ⟨t, ht, hr⟩ := exists_rowStep (s := { s with env := env }) hs hm
    rwa [ht]
  obtain ⟨l, hl, -⟩ | ⟨rfl, -⟩ | ⟨rfl, -⟩ | ⟨rfl, -⟩ := stepTable_kind hm
  · obtain ⟨i, hi, hil⟩ := microInstr_of_microLine hl s
    rw [runTick_of_fallible hi hil]
    exact .inr ⟨_, hsettled _⟩
  · exact .inl ⟨rfl, rfl⟩
  · exact .inr ⟨s.env, hsettled s.env⟩
  · exact .inr ⟨s.env, hsettled s.env⟩

theorem accept_tmr (op : Op) (w : BitVec 10) (s : State) : (accept op w s).tmr = s.tmr := by
  unfold accept
  split <;> rfl

theorem exists_cmd10 (w : BitVec 10) : ∃ rs rw db, w = cmd10 rs rw db := by
  refine ⟨w.getLsbD 9, w.getLsbD 8, w.extractLsb' 0 8, BitVec.eq_of_getLsbD_eq fun i hi => ?_⟩
  change w.getLsbD i =
    BitVec.getLsbD (BitVec.ofBool (w.getLsbD 9) ++ BitVec.ofBool (w.getLsbD 8) ++ w.extractLsb' 0 8) i
  simp only [BitVec.getLsbD_append, BitVec.getLsbD_extractLsb', BitVec.getLsbD_ofBool]
  interval_cases i <;> simp

theorem decodeCmd10_cmd10 (rs rw : Bool) (db : Byte) : decodeCmd10 (cmd10 rs rw db) =
    match rs, rw with
    | false, false => .writeInstr db
    | false, true => .state db
    | true, false => .writeData db
    | true, true => .reservedDataRead db := by
  revert db
  cases rs <;> cases rw <;> decide

theorem cmd10_lt_iff (rs rw : Bool) (db : Byte) : (cmd10 rs rw db).toNat < 0x300 ↔ (rs && rw) = false := by
  revert db
  cases rs <;> cases rw <;> decide

/-- The word of a command is that of its operation, but in the reserved quarter (R76 to R80). -/
theorem portCommand_cases (w : BitVec 10) :
    (w.toNat < 0x300 ∧ ∃ op, latchedCommand op w ∧ ∀ s, exec (decodeCmd10 w) s = .next (accept op w s)) ∨
      (0x300 ≤ w.toNat ∧ ∀ s, exec (decodeCmd10 w) s = .refused .reservedDataRead) := by
  obtain ⟨rs, rw, db, rfl⟩ := exists_cmd10 w
  rw [decodeCmd10_cmd10, ← not_lt, cmd10_lt_iff]
  cases rs with
  | false =>
    cases rw with
    | false => exact .inl ⟨rfl, .write .instr db, rfl, fun _ => rfl⟩
    | true => exact .inl ⟨rfl, .state, ⟨db, rfl⟩, fun _ => rfl⟩
  | true =>
    cases rw with
    | false => exact .inl ⟨rfl, .write .data db, rfl, fun _ => rfl⟩
    | true => exact .inr ⟨nofun, fun _ => rfl⟩

theorem portTick_tmr (p : PortsIn) (s : State) : (portTick p s).tmr = s.tmr := by
  unfold portTick
  split
  · obtain ⟨-, op, -, he⟩ | ⟨-, he⟩ := portCommand_cases p.cmd
    · rw [he]
      exact accept_tmr op p.cmd s
    · rw [he]
      rfl
  · rfl

theorem run_of_rowOf {s : State} {m : Micro} (h : rowOf s = some m) :
    ∃ op upc, s.seq = .run op upc ∧ stepTable op upc = some m := by
  unfold rowOf at h
  split at h
  · cases h
  · exact ⟨_, _, ‹_›, h⟩

/-- A tick outside a delay row leaves the timer. -/
theorem liveTick_tmr (p : PortsIn) {s : State} (hrow : rowOf s ≠ some (.action (.delayUs 1))) :
    (liveTick p s).tmr = s.tmr := by
  cases hs : s.seq with
  | idle => rw [liveTick_of_idle hs, portTick_tmr]
  | run op upc =>
    rw [rowOf_of_run hs] at hrow
    cases hm : stepTable op upc with
    | none => rw [liveTick_off_table hs hm]
    | some m =>
      rw [liveTick_of_run hs hm]
      obtain ⟨rfl, -⟩ | ⟨env, hr⟩ := runTick_cases p hs hm
      · exact absurd hm hrow
      · exact hr.tmr_eq hrow

theorem timerWithin_of_zero {c : Clocked} (h : c.core.tmr = 0) : TimerWithin c := fun hne => absurd h hne

/-- Off a delay row the timer is 0. -/
theorem TimerWithin.tmr_eq_zero {c : Clocked} (h : TimerWithin c) (hrow : rowOf c.core ≠ some (.action (.delayUs 1))) :
    c.core.tmr = 0 := by
  by_contra hne
  exact hrow (h hne).2

theorem TimerWithin.lt_clkPerUs {c : Clocked} (h : TimerWithin c) : c.core.tmr < Config.clkPerUs := by
  by_cases h0 : c.core.tmr = 0
  · rw [h0]
    exact Nat.succ_pos _
  · exact (h h0).1

theorem tick_core {p : PortsIn} (c : Clocked) (hrst : p.rst = false) : (tick p c).core = liveTick p c.core := by
  simp [tick, hrst]

theorem tick_of_rst {p : PortsIn} (c : Clocked) (hrst : p.rst = true) :
    tick p c = { core := constructEngine c.core, resValid := false, resInfo := 0 } := by
  simp [tick, hrst]

/-- Settles O54: a tick in a delay row counts down (`delayTicked_delayTick`), and any other leaves the timer at 0. -/
theorem clockTimerRunsOnlyInDelays : Obligations.ClockTimerRunsOnlyInDelays := by
  intro p c h
  cases hrst : p.rst with
  | true =>
    rw [tick_of_rst c hrst]
    exact timerWithin_of_zero rfl
  | false =>
    by_cases hrow : rowOf c.core = some (.action (.delayUs 1))
    · obtain ⟨op, upc, hs, hm⟩ := run_of_rowOf hrow
      rw [tick_of_delay hrst hs hm]
      obtain ⟨h0, -⟩ | ⟨hlt, hrun⟩ := delayTicked_delayTick 1 hs
      · exact timerWithin_of_zero h0
      · rw [max_eq_right h.lt_clkPerUs.le] at hlt
        exact fun _ => ⟨hlt, (rowOf_of_run hrun).trans hm⟩
    · refine timerWithin_of_zero ?_
      rw [tick_core c hrst, liveTick_tmr p hrow, h.tmr_eq_zero hrow]

/-! ### The error port -/

/-- The state a fallible row steps from: the input ports' answer is the next one (R37). -/
def portAnswered (p : PortsIn) (i : Instr) (s : State) : State := { s with env := portAnswer p i :: s.env }

section ErrorPort

variable {p : PortsIn} {c : Clocked} {op : Op} {upc : BitVec 5} {m : Micro} {i : Instr} {l : Line}

theorem tick_of_fallible {t : State} (hrst : p.rst = false) (hs : c.core.seq = .run op upc)
    (hm : stepTable op upc = some m) (hi : microInstr m c.core = some i) (hl : actionLine i = some l)
    (h : step (portAnswered p i c.core) = .next t) :
    tick p c = { core := t, resValid := t.seq == .idle, resInfo := if lineErr p l then p.errInfo else c.resInfo } := by
  have hlive : liveTick p c.core = t := by
    rw [liveTick_of_run hs hm, runTick_of_fallible hi hl]
    exact congrArg (settled · c.core) h
  have herr : errsNow p c.core = lineErr p l := (errsNow_of_row hs hm hi).trans (errPort_of_actionLine p hl)
  simp [tick, hrst, hlive, herr, hs]

/-- With the line's error port asserted a fallible row fails in its tick, the error bits copied. -/
theorem tick_of_error (hrst : p.rst = false) (hs : c.core.seq = .run op upc) (hm : stepTable op upc = some m)
    (hi : microInstr m c.core = some i) (hl : actionLine i = some l) (he : lineErr p l = true) :
    tick p c =
      { core := afterErr i l (Config.errOfPort p.errInfo) (portAnswered p i c.core)
        resValid := true
        resInfo := p.errInfo } := by
  have ha : (portAnswered p i c.core).answer = .err (Config.errOfPort p.errInfo) :=
    if_pos ((errPort_of_actionLine p hl).trans he)
  have ht := tick_of_fallible hrst hs hm hi hl (step_of_err (s := portAnswered p i c.core) hs hm hi hl ha)
  rwa [if_pos he] at ht

/-- With the line's error port not asserted a fallible row is followed by the next step. -/
theorem tick_of_no_error (hrst : p.rst = false) (hs : c.core.seq = .run op upc) (hm : stepTable op upc = some m)
    (hi : microInstr m c.core = some i) (hl : actionLine i = some l) (he : lineErr p l = false) :
    tick p c =
      { core := goOn m op upc (afterOk i (nibbleOf (levelsOf p.dbI)) (portAnswered p i c.core))
        resValid := false
        resInfo := c.resInfo } := by
  have hoff : ¬ errPort p i = true := by simp [errPort_of_actionLine p hl, he]
  have ha : (portAnswered p i c.core).answer = .ok (levelsOf p.dbI) := if_neg hoff
  have ht := tick_of_fallible hrst hs hm hi hl (step_of_ok (s := portAnswered p i c.core) hs hm hi hl ha)
  rwa [if_neg (by simp [he])] at ht

end ErrorPort

/-- Settles O57: the row takes the tick with the ports' answer (`tick_of_error`, `tick_of_no_error`). -/
theorem errorPortEndsOperation : Obligations.ErrorPortEndsOperation := by
  intro p c op upc l hrst hs hle hn
  obtain ⟨m, hm⟩ := exists_row hle
  obtain ⟨i, hi, hl⟩ := microInstr_of_microLine ((microLine_of_row hm).trans hn) c.core
  refine ⟨fun he => ?_, fun he => ?_⟩
  · obtain ⟨e, hact, hrec⟩ := recorded_of_actionLine hl 0
    rw [tick_of_error hrst hs hm hi hl he]
    refine ⟨rfl, rfl, rfl, congrArg Line.code (failureLine_failureOn l _), rfl, rfl, rfl, e, hact, ?_⟩
    simp only [afterErr, hrec]
    rfl
  · rw [tick_of_no_error hrst hs hm hi hl he]
    exact ⟨rfl, by simp [afterOk, portAnswered], rfl, rfl, rfl⟩

/-! ### The ports -/

theorem portTick_of_valid {p : PortsIn} (s : State) (h : p.cmdValid = true) :
    portTick p s = settled (exec (decodeCmd10 p.cmd) s) s := by
  simp [portTick, h]

theorem afterAction_cmdQ (m : Micro) (s : State) : (afterAction m s).cmdQ = s.cmdQ := by
  unfold afterAction
  split
  · exact goOn_cmdQ m _ _ s
  · rfl

theorem delayTick_cmdQ (m : Micro) (n : Nibble) (s : State) : (delayTick m n s).cmdQ = s.cmdQ := by
  unfold delayTick
  dsimp only
  split
  all_goals
    split
    · exact afterAction_cmdQ m _
    · rfl

/-- While an operation runs no tick takes a command. -/
theorem liveTick_cmdQ {op : Op} {upc : BitVec 5} {s : State} (p : PortsIn) (hs : s.seq = .run op upc) :
    (liveTick p s).cmdQ = s.cmdQ := by
  cases hm : stepTable op upc with
  | none => rw [liveTick_off_table hs hm]
  | some m =>
    rw [liveTick_of_run hs hm]
    obtain ⟨-, hd⟩ | ⟨env, hr⟩ := runTick_cases p hs hm
    · rw [hd, delayTick_cmdQ]
    · obtain ⟨-, hcmd, -⟩ := hr.host_frame
      exact hcmd

/-- Settles O58: acceptance and refusal by the word's quarter (`portCommand_cases`), a running operation by
`liveTick_cmdQ`. -/
theorem commandPortHandshake : Obligations.CommandPortHandshake := by
  intro p c
  refine ⟨⟨rfl, rfl, rfl, rfl, rfl, rfl⟩, fun r hr => ?_, beq_iff_eq, fun hrst hv hready hlt => ?_,
    fun hrst hs hv hge => ?_, fun op upc hrst hs => ?_, fun hrst => ?_⟩
  · simp only [portsOut, hr]
    rfl
  · rw [tick_core c hrst, liveTick_of_idle ((ready_iff _).mp hready).1, portTick_of_valid _ hv]
    obtain ⟨-, op, hop, he⟩ | ⟨hge, -⟩ := portCommand_cases p.cmd
    · rw [he, accept_of_ready hready]
      exact ⟨rfl, op, rfl, hop⟩
    · omega
  · rw [tick_core c hrst, liveTick_of_idle hs, portTick_of_valid _ hv]
    obtain ⟨hlt, -⟩ | ⟨-, he⟩ := portCommand_cases p.cmd
    · omega
    · rw [he]
      rfl
  · rw [tick_core c hrst, liveTick_cmdQ p hs]
  · rw [tick_of_rst c hrst]
    exact ⟨rfl, rfl, rfl, rfl, rfl, rfl, rfl, rfl, rfl, rfl⟩

end Sys2Proof.Machine

/-! PROOFS. The bytes, the nibbles and the bus levels, and the accesses of the address map
(20_memory.md R51, R52, R57, R58, R67, R68, 30_encoding.md R82 to R84). -/

namespace Sys2Proof.Machine

/-! ### Bytes and nibbles as numbers -/

theorem lo4_toNat (b : Byte) : (lo4 b).toNat = b.toNat % 16 := by
  simp [lo4]

theorem hi4_toNat (b : Byte) : (hi4 b).toNat = b.toNat / 16 := by
  have := b.isLt
  simp only [hi4, BitVec.extractLsb'_toNat, Nat.shiftRight_eq_div_pow]
  omega

theorem join_toNat (l h : Nibble) : (join l h).toNat = 16 * h.toNat + l.toNat := by
  rw [join, BitVec.toNat_append, ← Nat.shiftLeft_add_eq_or_of_lt l.isLt, Nat.shiftLeft_eq, Nat.mul_comm]

theorem join_lo4_hi4 (b : Byte) : join (lo4 b) (hi4 b) = b := by
  apply BitVec.eq_of_toNat_eq
  rw [join_toNat, lo4_toNat, hi4_toNat]
  exact Nat.div_add_mod b.toNat 16

theorem hi4_join (l h : Nibble) : hi4 (join l h) = h := by
  apply BitVec.eq_of_toNat_eq
  rw [hi4_toNat, join_toNat]
  omega

/-! ### Nibbles and bus levels -/

@[simp] theorem bitLevel_levelBit (x : Logic) : bitLevel (levelBit x) = x := by
  cases x <;> rfl

theorem nibbleOf_levelsOf (v : Nibble) : nibbleOf (levelsOf v) = v := by
  revert v
  decide

/-- The nibble of four levels has the bit of element `i` at place `i` (R57). -/
theorem getLsbD_nibbleOf (x : Bus4) :
    (nibbleOf x).getLsbD 0 = levelBit x.e0 ∧ (nibbleOf x).getLsbD 1 = levelBit x.e1 ∧
      (nibbleOf x).getLsbD 2 = levelBit x.e2 ∧ (nibbleOf x).getLsbD 3 = levelBit x.e3 := by
  simp only [nibbleOf, BitVec.getLsbD_append, BitVec.getLsbD_ofBool]
  simp

theorem levelsOf_nibbleOf (x : Bus4) : levelsOf (nibbleOf x) = x := by
  obtain ⟨h0, h1, h2, h3⟩ := getLsbD_nibbleOf x
  simp only [levelsOf, h0, h1, h2, h3, bitLevel_levelBit]

/-- Settles O7: split and join are quotient, remainder and their sum (`lo4_toNat`, `hi4_toNat`, `join_toNat`), and bit `i` of
a nibble is the level of element `i` (`getLsbD_nibbleOf`). -/
theorem nibbleRoundTrips : Obligations.NibbleRoundTrips :=
  ⟨fun b => ⟨join_lo4_hi4 b, lo4_toNat b, hi4_toNat b⟩,
    fun l h => ⟨lo4_join l h, hi4_join l h, join_toNat l h⟩,
    fun v => ⟨nibbleOf_levelsOf v, rfl, rfl, rfl, rfl⟩,
    levelsOf_nibbleOf⟩

/-! ### The rows that access the bus -/

/-- E going high, and a read or a write of the bus: what the address map speaks of (R51, R68). -/
def isAccess : Event → Bool
  | .eHigh | .busRead _ | .busWrite _ => true
  | _ => false

/-- A primitive that has a row records itself, and beside that no access: the marker of its failure, or a delay. -/
theorem exec_records {i : Instr} {s t : State} (hi : (actionRow i).isSome) (h : exec i s = .next t) :
    ∃ v rest, t.trace = s.trace ++ (recorded v i ++ rest) ∧ ∀ e ∈ rest, isAccess e = false := by
  cases hl : actionLine i with
  | some l =>
    cases ha : s.answer with
    | ok v =>
      cases (exec_of_ok hl ha).symm.trans h
      exact ⟨nibbleOf v, [], by simp [afterOk], by simp⟩
    | err x =>
      cases (exec_of_err hl ha).symm.trans h
      exact ⟨0, [.fail l], rfl, by simp [isAccess]⟩
  | none =>
    cases i with
    | delayUs n =>
      cases h
      exact ⟨0, [.delayUs n], rfl, by simp [isAccess]⟩
    | rsLow | rsHigh | rwLow | rwHigh | eLow | eHigh | busWrite _ | busRead _ => cases hl
    | _ => cases hi

section Access

variable {op : Op} {upc : BitVec 5} {m : Micro} {i : Instr} {s t : State} {es : List Event} {e : Event} {v w : Nibble}

/-- An access in the history gained is the primitive of the row. -/
theorem recorded_of_access (hs : s.seq = .run op upc) (h : step s = .next t) (hg : gained s t es) (he : e ∈ es)
    (hacc : isAccess e = true) :
    ∃ m i v, stepTable op upc = some m ∧ microInstr m s = some i ∧ e ∈ recorded v i := by
  obtain ⟨m, hm, ⟨-, rfl⟩ | ⟨i, u, hi, hu, rfl⟩⟩ := seqStep_cases ((step_of_run hs).symm.trans h)
  · have htrace := congrArg Outside.trace (complete_outside m op upc s)
    cases List.self_eq_append_right.mp (htrace.symm.trans hg)
    cases he
  · obtain ⟨v, rest, hrec, hrest⟩ := exec_records (microInstr_actionRow hm hi) hu
    have htrace := congrArg Outside.trace (afterAction_outside m u)
    cases List.append_cancel_left (hg.symm.trans (htrace.trans hrec))
    refine ⟨m, i, v, hm, hi, (List.mem_append.mp he).resolve_right fun hr => ?_⟩
    exact absurd ((hrest e hr).symm.trans hacc) nofun

theorem eHigh_mem_recorded (h : .eHigh ∈ recorded v i) : i = .eHigh := by
  unfold recorded at h
  split at h <;> simp_all

theorem busRead_mem_recorded (h : .busRead w ∈ recorded v i) : ∃ u, i = .busRead u := by
  unfold recorded at h
  split at h <;> simp_all

theorem busWrite_mem_recorded (h : .busWrite w ∈ recorded v i) : i = .busWrite w := by
  unfold recorded at h
  split at h <;> simp_all

/-- E is driven high by the first row of each pulse. -/
theorem upc_of_eHigh (hm : stepTable op upc = some m) (hi : microInstr m s = some .eHigh) :
    upc.toNat ∈ [2, 7, 16, 21] := by
  have hen := enAfter_of_row hm hi .L
  by_contra hn
  rw [if_neg hn, ite_self] at hen
  cases hen

/-- The bus is read by steps 6 and 11. -/
theorem upc_of_busRead (hm : stepTable op upc = some m) (hi : microInstr m s = some (.busRead w)) :
    upc.toNat = 6 ∨ upc.toNat = 11 := by
  obtain ⟨-, hp⟩ | ⟨kind, b, rfl, -, hd⟩ := stepTable_cases hm
  · unfold pollTable at hp
    split at hp <;> cases hp <;> cases hi <;> simp [*]
  · unfold dataTable at hd
    split at hd <;> cases kind <;> cases hd <;> cases hi

/-- The bus is written by steps 15, with the low nibble, and 20, with the high one. -/
theorem upc_of_busWrite (hm : stepTable op upc = some m) (hi : microInstr m s = some (.busWrite w)) :
    (upc.toNat = 15 ∧ w = s.loQ) ∨ (upc.toNat = 20 ∧ w = s.hiQ) := by
  have hdb : some w = _ := dbAfter_of_row hm hi none
  split at hdb
  next h15 => exact .inl ⟨h15, Option.some.inj hdb⟩
  next =>
    split at hdb
    next h20 => exact .inr ⟨h20, Option.some.inj hdb⟩
    next => cases hdb

end Access

/-! ### What is selected at each step -/

section Selected

variable {op : Op} {kind : Kind} {b : Byte} {n : Nat} {s : State}

/-- From step 2 to step 13 RS and RW select STATUS (R51). -/
theorem selected_in_poll (h : AtStep op n s) (h2 : 2 ≤ n) (h13 : n ≤ 13) : selected s.rsQ s.rwQ = some .status := by
  obtain ⟨-, -, hrs, hrw, -⟩ := h
  rw [hrs (by omega) h13, hrw h2 (by omega), selected]

/-- From step 15 RS and RW select the register of the operand's kind (R67). -/
theorem selected_in_data (h : DataPhase kind b n s) (h15 : 15 ≤ n) :
    selected s.rsQ s.rwQ = some .ir ∨ selected s.rsQ s.rwQ = some .dr := by
  obtain ⟨-, hrs, hrw, -⟩ := h
  rw [hrs (by omega), hrw h15]
  cases kind
  · exact .inl rfl
  · exact .inr rfl

/-- In the data phase the nibble latches hold the operand. -/
theorem latches_in_data (h : DataPhase kind b n s) (h13 : 13 ≤ n) : s.loQ = lo4 b ∧ s.hiQ = hi4 b := by
  obtain ⟨hlatch, -⟩ := h
  exact (hlatch h13).2

/-- Past step 12 it is a write that runs, in its data phase. -/
theorem dataPhase_of_atStep (h : AtStep op n s) (h12 : 12 < n) : ∃ kind b, op = .write kind b ∧ DataPhase kind b n s := by
  obtain ⟨hle, -, -, -, -, -, hdata⟩ := h
  cases op with
  | state => exact absurd hle (not_le.mpr h12)
  | write kind b => exact ⟨kind, b, rfl, hdata kind b rfl⟩

theorem enQ_of_eIsLow (h : AtStep op n s) (hn : eIsLow n = true) : s.enQ = .L := by
  obtain ⟨-, -, -, -, -, hlow, -⟩ := h
  exact hlow hn

theorem selected_of_eHigh_row (h : AtStep op n s) (hn : n ∈ [2, 7, 16, 21]) : selected s.rsQ s.rwQ ≠ none := by
  have hphase : ∀ k ∈ [2, 7, 16, 21], (2 ≤ k ∧ k ≤ 13) ∨ 15 ≤ k := by decide
  obtain ⟨h2, h13⟩ | h15 := hphase n hn
  · simp [selected_in_poll h h2 h13]
  · obtain ⟨kind, b, -, hd⟩ := dataPhase_of_atStep h (by omega)
    obtain hsel | hsel := selected_in_data hd h15 <;> simp [hsel]

end Selected

/-- Settles O48: an access is the primitive of its row (`recorded_of_access`), which says the step, and the invariant says
what is selected there (`selected_in_poll`, `selected_in_data`) and that E is low (`enQ_of_eIsLow`). -/
theorem accessesAreSelected : Obligations.AccessesAreSelected := by
  rintro s t op upc es ⟨hc, -⟩ hs h hg
  have hat : AtStep op upc.toNat s := hc op upc hs
  refine ⟨fun he => ?_, fun w he => ?_, fun w he => ?_⟩
  · obtain ⟨m, i, v, hm, hi, hrec⟩ := recorded_of_access hs h hg he rfl
    cases eHigh_mem_recorded hrec
    exact selected_of_eHigh_row hat (upc_of_eHigh hm hi)
  · obtain ⟨m, i, v, hm, hi, hrec⟩ := recorded_of_access hs h hg he rfl
    obtain ⟨u, rfl⟩ := busRead_mem_recorded hrec
    obtain hn | hn := upc_of_busRead hm hi <;> rw [hn] at hat <;>
      exact ⟨selected_in_poll hat (by decide) (by decide), enQ_of_eIsLow hat rfl⟩
  · obtain ⟨m, i, v, hm, hi, hrec⟩ := recorded_of_access hs h hg he rfl
    cases busWrite_mem_recorded hrec
    obtain ⟨hn, rfl⟩ | ⟨hn, rfl⟩ := upc_of_busWrite hm hi <;> rw [hn] at hat
    all_goals
      obtain ⟨kind, b, rfl, hd⟩ := dataPhase_of_atStep hat (by decide)
      obtain ⟨hlo, hhi⟩ := latches_in_data hd (by decide)
      refine ⟨selected_in_data hd (by decide), enQ_of_eIsLow hat rfl, kind, b, rfl, ?_⟩
    · exact .inl hlo
    · exact .inr hhi

end Sys2Proof.Machine

/-! PROOFS. The encodings: every format's words and their decoding, the event bytes and their histories, the status byte,
the result word, the reserved quarter of the command words (30_encoding.md R76 to R88, R91 to R93). -/

namespace Sys2Proof.Machine

/-- A concatenation as a number, its upper part first. -/
theorem append_toNat {m n : Nat} (x : BitVec m) (y : BitVec n) : (x ++ y).toNat = 2 ^ n * x.toNat + y.toNat := by
  rw [BitVec.toNat_append, ← Nat.shiftLeft_add_eq_or_of_lt y.isLt, Nat.shiftLeft_eq, Nat.mul_comm]

/-! ### The event byte -/

theorem code_ofCode (c : BitVec 2) : (Line.ofCode c).code = c := by
  revert c
  decide

theorem decodeEvent_evt8 (e : Event) : decodeEvent e.evt8 = some e := by
  cases e with
  | delayUs n | busWrite n | busRead n =>
    revert n
    decide
  | fail l => cases l <;> rfl
  | _ => rfl

/-- A byte of code `c` is `c` in the upper nibble and its argument in the lower (R85). -/
theorem code_append_arg {b : Byte} {c : Nibble} (h : b.extractLsb' 4 4 = c) : c ++ b.extractLsb' 0 4 = b := by
  subst h
  exact join_lo4_hi4 b

/-- The argument of a marker is the line's code under two zero bits (R85, R86). -/
theorem lineCode_append {a : Nibble} (h : a.extractLsb' 2 2 = 0#2) : 0#2 ++ a.extractLsb' 0 2 = a := by
  revert a
  decide

theorem evt8_of_decodeEvent {b : Byte} {e : Event} (h : decodeEvent b = some e) : e.evt8 = b := by
  simp only [decodeEvent] at h
  split_ifs at h with h6 h7 h8 hF harg h00 h10 h20 h30 h40 h50 <;> cases h
  · exact code_append_arg h6
  · exact code_append_arg h7
  · exact code_append_arg h8
  · rw [Event.evt8, code_ofCode, lineCode_append harg]
    exact code_append_arg hF
  · exact h00.symm
  · exact h10.symm
  · exact h20.symm
  · exact h30.symm
  · exact h40.symm
  · exact h50.symm

/-- A byte records one event at most, the one whose byte it is (R85). -/
theorem decodeEvent_eq_some_iff {b : Byte} {e : Event} : decodeEvent b = some e ↔ e.evt8 = b := by
  refine ⟨evt8_of_decodeEvent, fun h => ?_⟩
  rw [← h, decodeEvent_evt8]

/-- No event has a code from 0x9 to 0xE (R85, R88). -/
theorem evt8_outside_unused (e : Event) : e.evt8.toNat < 0x90 ∨ 0xF0 ≤ e.evt8.toNat := by
  cases e with
  | delayUs n | busWrite n | busRead n =>
    revert n
    decide
  | fail l => cases l <;> decide
  | _ => decide

theorem decodeEvent_unused {b : Byte} (hlo : 0x90 ≤ b.toNat) (hhi : b.toNat < 0xF0) : decodeEvent b = none := by
  refine Option.eq_none_iff_forall_ne_some.mpr fun e he => ?_
  have := evt8_outside_unused e
  rw [evt8_of_decodeEvent he] at this
  omega

/-! ### Histories in bytes -/

theorem eventsOf_cons (b : Byte) (bs : List Byte) :
    eventsOf (b :: bs) = (decodeEvent b).bind fun e => (eventsOf bs).map (e :: ·) := by
  rw [eventsOf]
  cases decodeEvent b <;> cases eventsOf bs <;> rfl

/-- A list of bytes is read as `t` just when it is what `t` is written in. -/
theorem eventsOf_eq_some_iff {bs : List Byte} {t : List Event} : eventsOf bs = some t ↔ evt8s t = bs := by
  induction bs generalizing t with
  | nil => simp [eventsOf, evt8s, eq_comm]
  | cons b bs ih =>
    simp only [eventsOf_cons, Option.bind_eq_some_iff, Option.map_eq_some_iff, decodeEvent_eq_some_iff, ih]
    constructor
    · rintro ⟨e, rfl, es, rfl, rfl⟩
      rfl
    · intro h
      obtain ⟨e, es, rfl, he, hes⟩ := List.map_eq_cons_iff.mp h
      exact ⟨e, he, es, hes, rfl⟩

theorem unused_notMem_evt8s (t : List Event) {b : Byte} (hlo : 0x90 ≤ b.toNat) (hhi : b.toNat < 0xF0) : b ∉ evt8s t := by
  intro hb
  obtain ⟨e, -, rfl⟩ := List.mem_map.mp hb
  have := evt8_outside_unused e
  omega

/-- Settles O5: bytes are read as the history they are written from and as no other (`eventsOf_eq_some_iff`), and no history is
written in a byte of an unused code (`evt8_outside_unused`). -/
theorem historyBytesRoundTrip : Obligations.HistoryBytesRoundTrip := by
  refine ⟨fun t => eventsOf_eq_some_iff.mpr rfl, fun t b hlo hhi => unused_notMem_evt8s t hlo hhi,
    fun bs b hb hlo hhi => Option.eq_none_iff_forall_ne_some.mpr fun t ht => ?_⟩
  rw [← eventsOf_eq_some_iff.mp ht] at hb
  exact unused_notMem_evt8s t hlo hhi hb

/-! ### The decoder, format by format -/

/-- A word that decodes fits its format. -/
theorem exists_word_of_decode {f : Format} {w : Nat} {i : Instr} (h : decode f w = .ok i) :
    ∃ x : BitVec f.width, w = x.toNat := by
  unfold decode at h
  split at h
  next hw => exact ⟨⟨w, hw⟩, rfl⟩
  next => cases h

theorem decode_cmd10 (w : BitVec 10) : decode .cmd10 w.toNat = .ok (decodeCmd10 w) := by
  simp [decode, Format.width, w.isLt]

theorem decode_evt8 (b : Byte) : decode .evt8 b.toNat = decodeEvt8 b := by
  simp [decode, Format.width, b.isLt]

theorem decode_evt8x4 (w : BitVec 32) : decode .evt8x4 w.toNat = decodeEvt8x4 w := by
  simp [decode, Format.width, w.isLt]

theorem decode_status8 (v : Byte) : decode .status8 v.toNat = .ok (.decodeStatus v) := by
  simp [decode, Format.width, v.isLt]

theorem decode_split8 (b : Byte) : decode .split8 b.toNat = .ok (.split b) := by
  simp [decode, Format.width, b.isLt]

theorem decode_join8 (b : Byte) : decode .join8 b.toNat = .ok (.join (lo4 b) (hi4 b)) := by
  simp [decode, Format.width, b.isLt, lo4, hi4]

theorem decodeEvt8_evt8 (e : Event) : decodeEvt8 e.evt8 = .ok e.instr := by
  rw [decodeEvt8, decodeEvent_evt8]

theorem decodeEvt8_unused {b : Byte} (hlo : 0x90 ≤ b.toNat) (hhi : b.toNat < 0xF0) : decodeEvt8 b = .error .unusedEvent := by
  rw [decodeEvt8, decodeEvent_unused hlo hhi]

theorem event_of_decodeEvt8 {b : Byte} {i : Instr} (h : decodeEvt8 b = .ok i) : ∃ e : Event, e.evt8 = b ∧ e.instr = i := by
  unfold decodeEvt8 at h
  split at h
  next e he =>
    cases h
    exact ⟨e, evt8_of_decodeEvent he, rfl⟩
  next => cases h

theorem pulse_of_decodeEvt8x4 {w : BitVec 32} {i : Instr} (h : decodeEvt8x4 w = .ok i) : w = pulseWord ∧ i = .pulseEnable := by
  unfold decodeEvt8x4 at h
  split at h
  next hw =>
    cases h
    exact ⟨hw, rfl⟩
  next => cases h

/-! ### The words of the encoder -/

@[simp] theorem ofCmd_stateWord_decode (db : Byte) : (Code.ofCmd (stateWord db)).decode = .ok (.state db) :=
  (decode_cmd10 _).trans (congrArg Except.ok (decodeCmd10_cmd10 false true db))

@[simp] theorem ofCmd_writeWord_instr_decode (b : Byte) : (Code.ofCmd (writeWord .instr b)).decode = .ok (.writeInstr b) :=
  (decode_cmd10 _).trans (congrArg Except.ok (decodeCmd10_cmd10 false false b))

@[simp] theorem ofCmd_writeWord_data_decode (b : Byte) : (Code.ofCmd (writeWord .data b)).decode = .ok (.writeData b) :=
  (decode_cmd10 _).trans (congrArg Except.ok (decodeCmd10_cmd10 true false b))

@[simp] theorem ofCmd_reserved_decode (db : Byte) : (Code.ofCmd (cmd10 true true db)).decode = .ok (.reservedDataRead db) :=
  (decode_cmd10 _).trans (congrArg Except.ok (decodeCmd10_cmd10 true true db))

@[simp] theorem ofEvent_decode (e : Event) : (Code.ofEvent e).decode = .ok e.instr :=
  (decode_evt8 _).trans (decodeEvt8_evt8 e)

theorem join8_decode (l h : Nibble) : decode .join8 (h ++ l).toNat = .ok (.join l h) := by
  have hword : h ++ l = join l h := rfl
  rw [hword, decode_join8, lo4_join, hi4_join]

theorem encode_event (e : Event) : encode e.instr = [.ofEvent e] := by
  cases e <;> rfl

theorem encode_decodeCmd10 (w : BitVec 10) : encode (decodeCmd10 w) = [.ofCmd w] := by
  obtain ⟨rs, rw, db, rfl⟩ := exists_cmd10 w
  rw [decodeCmd10_cmd10]
  cases rs <;> cases rw <;> rfl

theorem core_of_not_pseudo {i : Instr} (h : i.isPseudo = false) : i.core = [i] := by
  cases i with
  | facadeState _ | facadeWrite _ _ | writeByteBlocking _ | writeBytes _ | writeChar _ => cases h
  | _ => rfl

/-- A row that is not of class pseudo is one word, which decodes to the row (R93). -/
theorem decode_encode_of_not_pseudo {i : Instr} (h : i.isPseudo = false) :
    ∃ c : Code, encode i = [c] ∧ c.decode = .ok i := by
  cases i with
  | facadeState _ | facadeWrite _ _ | writeByteBlocking _ | writeBytes _ | writeChar _ => cases h
  | state db => exact ⟨_, rfl, ofCmd_stateWord_decode db⟩
  | writeInstr b => exact ⟨_, rfl, ofCmd_writeWord_instr_decode b⟩
  | writeData b => exact ⟨_, rfl, ofCmd_writeWord_data_decode b⟩
  | reservedDataRead db => exact ⟨_, rfl, ofCmd_reserved_decode db⟩
  | clearDisplay | returnHome | pulseEnable => exact ⟨_, rfl, rfl⟩
  | rsLow | rsHigh | rwLow | rwHigh | eLow | eHigh | delayUs _ | busWrite _ | busRead _ | fail _ =>
    exact ⟨_, rfl, ofEvent_decode _⟩
  | decodeStatus v => exact ⟨_, rfl, decode_status8 v⟩
  | split b => exact ⟨_, rfl, decode_split8 b⟩
  | join lo hi => exact ⟨_, rfl, join8_decode lo hi⟩

/-- A row of class pseudo has the words of the commands it issues (R91, R93). -/
theorem decode_encode_of_pseudo {i : Instr} (h : i.isPseudo = true) : (encode i).map Code.decode = i.core.map .ok := by
  cases i with
  | facadeState _ | writeByteBlocking _ | writeChar _ => simp [encode, Instr.core]
  | facadeWrite kind b => cases kind <;> simp [encode, Instr.core]
  | writeBytes bs => simp [encode, Instr.core, Function.comp_def]
  | _ => cases h

/-- Settles O2, by the class of the row: one word (`decode_encode_of_not_pseudo`), or the words of the commands it issues
(`decode_encode_of_pseudo`). -/
theorem decodeOfEncode : Obligations.DecodeOfEncode := by
  refine fun i => ⟨?_, core_of_not_pseudo⟩
  cases hp : i.isPseudo with
  | true => exact decode_encode_of_pseudo hp
  | false =>
    obtain ⟨c, henc, hdec⟩ := decode_encode_of_not_pseudo hp
    rw [henc, core_of_not_pseudo hp, List.map_singleton, hdec, List.map_singleton]

/-- Settles O3: a word that decodes fits its format (`exists_word_of_decode`), and there the encoder writes it again. -/
theorem encodeOfDecode : Obligations.EncodeOfDecode := by
  intro f w i h hlcdi
  obtain ⟨x, rfl⟩ := exists_word_of_decode h
  cases f with
  | cmd10 =>
    cases (decode_cmd10 x).symm.trans h
    exact encode_decodeCmd10 x
  | lcdi8 =>
    obtain hx | hx := hlcdi rfl
    all_goals
      rw [hx] at h ⊢
      cases h
      rfl
  | evt8 =>
    obtain ⟨e, rfl, rfl⟩ := event_of_decodeEvt8 ((decode_evt8 x).symm.trans h)
    exact encode_event e
  | evt8x4 =>
    obtain ⟨rfl, rfl⟩ := pulse_of_decodeEvt8x4 ((decode_evt8x4 x).symm.trans h)
    rfl
  | status8 =>
    cases (decode_status8 x).symm.trans h
    rfl
  | split8 =>
    cases (decode_split8 x).symm.trans h
    rfl
  | join8 =>
    cases (decode_join8 x).symm.trans h
    exact congrArg (fun b : Byte => [Code.mk .join8 b.toNat]) (join_lo4_hi4 x)

/-! ### Words known by their number of bits -/

/-- Settles O1: nine words computed; a byte of an unused code is none of the two instruction bytes, and no event. -/
theorem specWordsDecode : Obligations.SpecWordsDecode := by
  refine ⟨rfl, rfl, rfl, rfl, rfl, rfl, rfl, rfl, rfl, fun b hlo hhi => ?_⟩
  have h1 : b.toNat ≠ 0x01 := by omega
  have h2 : b.toNat ≠ 0x02 := by omega
  have hdec : (Code.mk .evt8 b.toNat).decode = .error .unusedEvent :=
    (decode_evt8 b).trans (decodeEvt8_unused hlo hhi)
  simp only [decodeTableWord, codeOfBits, if_neg h1, if_neg h2, hdec]

/-! ### The quarters of the command words -/

theorem cmd10_toNat (rs rw : Bool) (db : Byte) :
    (cmd10 rs rw db).toNat = 0x200 * rs.toNat + 0x100 * rw.toNat + db.toNat := by
  simp only [cmd10, append_toNat, BitVec.toNat_ofBool]
  omega

theorem ofNat_cmd10_toNat (rs rw : Bool) (db : Byte) : BitVec.ofNat 8 (cmd10 rs rw db).toNat = db := by
  apply BitVec.eq_of_toNat_eq
  rw [BitVec.toNat_ofNat, cmd10_toNat]
  omega

/-- Settles O4: the top two bits of a word are its quarter (`cmd10_toNat`) and its decode (`decodeCmd10_cmd10`). -/
theorem commandWordsPartition : Obligations.CommandWordsPartition := by
  intro w
  obtain ⟨rs, rw, db, rfl⟩ := exists_cmd10 w
  have hdb := db.isLt
  rw [decodeCmd10_cmd10, ofNat_cmd10_toNat, cmd10_toNat]
  cases rs <;> cases rw
  all_goals dsimp only [Bool.toNat, cond]
  · exact ⟨fun _ => rfl, by omega, by omega, by omega⟩
  · exact ⟨by omega, fun _ _ => rfl, by omega, by omega⟩
  · exact ⟨by omega, by omega, fun _ _ => rfl, by omega⟩
  · exact ⟨by omega, by omega, by omega, fun _ => rfl⟩

/-- Settles O19: a word of the reserved quarter decodes to the reserved command (`commandWordsPartition`), the next one the
machine runs (`placedWordIsNext`). -/
theorem reservedCommandRefused : Obligations.ReservedCommandRefused := by
  refine ⟨fun db s => rfl, fun w s hlo hhi => ?_⟩
  have hw : (BitVec.ofNat 10 w).toNat = w := by
    rw [BitVec.toNat_ofNat]
    omega
  obtain ⟨-, -, -, hquarter⟩ := commandWordsPartition (BitVec.ofNat 10 w)
  have hdec : (Code.mk .cmd10 w).decode = .ok (.reservedDataRead (BitVec.ofNat 8 w)) := by
    have h := decode_cmd10 (BitVec.ofNat 10 w)
    rwa [hquarter (by omega), hw] at h
  have hword : decodeTableWord 16 w = some (.reservedDataRead (BitVec.ofNat 8 w)) := by
    simp only [decodeTableWord, codeOfBits, hdec]
  obtain ⟨hruns, -⟩ := placedWordIsNext s 16 w _ hword
  exact hruns rfl

/-! ### The status byte -/

theorem encodeStatus_eq_cons (st : Status) : encodeStatus st = BitVec.cons st.busy st.addr := rfl

theorem busyFlag_eq_msb (v : Byte) : busyFlag v = v.msb := rfl

theorem decodeStatus_eq (v : Byte) : decodeStatus v = ⟨v.msb, v.setWidth 7⟩ := by
  have haddr : v.extractLsb' 0 7 = v.setWidth 7 := BitVec.eq_of_toNat_eq rfl
  rw [decodeStatus, busyFlag_eq_msb, haddr]

theorem encodeStatus_decodeStatus (v : Byte) : encodeStatus (decodeStatus v) = v := by
  rw [encodeStatus_eq_cons, decodeStatus_eq]
  exact BitVec.cons_msb_setWidth v

theorem decodeStatus_encodeStatus (st : Status) : decodeStatus (encodeStatus st) = st := by
  rw [decodeStatus_eq, encodeStatus_eq_cons, BitVec.msb_cons, BitVec.setWidth_cons]

theorem decodeStatus_addr_toNat (v : Byte) : (decodeStatus v).addr.toNat = (v &&& 0x7F#8).toNat := by
  rw [decodeStatus_eq, BitVec.toNat_and, BitVec.toNat_setWidth]
  exact (Nat.and_two_pow_sub_one_eq_mod v.toNat 7).symm

theorem encodeStatus_toNat (st : Status) : (encodeStatus st).toNat = (if st.busy then 0x80 else 0x00) ||| st.addr.toNat := by
  rw [encodeStatus, BitVec.toNat_append]
  cases st.busy <;> rfl

/-- Settles O6: a status byte is its top bit before the seven others (`decodeStatus_eq`, `encodeStatus_eq_cons`). -/
theorem statusByteLayout : Obligations.StatusByteLayout :=
  ⟨fun v => ⟨BitVec.msb_eq_decide v, rfl, decodeStatus_addr_toNat v, encodeStatus_decodeStatus v⟩,
    fun st => ⟨decodeStatus_encodeStatus st, encodeStatus_toNat st⟩, rfl⟩

/-! ### The result word -/

theorem res12_toNat (r : Result) :
    r.res12.toNat = 0x400 * r.kindCode.toNat + 0x100 * r.lineCode.toNat + r.statusByte.toNat := by
  simp only [Result.res12, append_toNat]
  omega

theorem res12_failed_toNat (f : Failure) :
    (Result.failed f).res12.toNat = 0x800 + 0x100 * (failureLine f).code.toNat := res12_toNat _

theorem kindCode_lt (r : Result) : r.kindCode.toNat < 3 := by
  cases r <;> simp [Result.kindCode]

/-- Settles O8: the words by their three fields; kind 3 is none (`kindCode_lt`), so no word reaches the last quarter. -/
theorem resultWords : Obligations.ResultWords := by
  refine ⟨rfl, fun v => ?_, rfl, fun e => ?_, fun e => ?_, fun e => ?_, fun e => ?_, fun _ => rfl, fun r => ?_⟩
  · simp [res12_toNat, Result.kindCode, Result.lineCode, Result.statusByte]
  · exact BitVec.eq_of_toNat_eq (res12_failed_toNat (.rs e))
  · exact BitVec.eq_of_toNat_eq (res12_failed_toNat (.rw e))
  · exact BitVec.eq_of_toNat_eq (res12_failed_toNat (.en e))
  · exact BitVec.eq_of_toNat_eq (res12_failed_toNat (.bus e))
  · have hkind := kindCode_lt r
    have hline := r.lineCode.isLt
    have hstatus := r.statusByte.isLt
    rw [res12_toNat]
    omega

end Sys2Proof.Machine

/-! PROOFS. The line primitives, the enable pulse and the pure functions: the rows of the step tables that use them, and what
`exec` of each leaves (40_line_primitives.md R101 to R113). -/

namespace Sys2Proof.Machine

/-! ### The rows of a table -/

/-- A step table does not depend on the byte a write transfers. -/
theorem stepTable_write (kind : Kind) (b : Byte) : stepTable (.write kind b) = stepTable (.write kind 0) := rfl

theorem rowsWhere_write (p : Micro → Bool) (kind : Kind) (b : Byte) :
    rowsWhere p (.write kind b) = rowsWhere p (.write kind 0) := rfl

theorem rowsOf_write (i : Instr) (kind : Kind) (b : Byte) : rowsOf i (.write kind b) = rowsOf i (.write kind 0) := rfl

theorem mem_rowsOf {i : Instr} {op : Op} {n : Nat} :
    n ∈ rowsOf i op ↔ n < 32 ∧ stepTable op (BitVec.ofNat 5 n) = some (.action i) := by
  simp only [rowsOf, rowsWhere, List.mem_filter, List.mem_range]
  cases stepTable op (BitVec.ofNat 5 n) <;> simp

theorem toNat_mem_rowsOf {i : Instr} {op : Op} {upc : BitVec 5} :
    upc.toNat ∈ rowsOf i op ↔ stepTable op upc = some (.action i) := by
  simp [mem_rowsOf, upc.isLt]

theorem rowsOf_eq_nil {i : Instr} {op : Op} (h : ∀ upc, stepTable op upc ≠ some (.action i)) : rowsOf i op = [] :=
  List.eq_nil_iff_forall_not_mem.mpr fun _ hn => h _ (mem_rowsOf.mp hn).2

/-! ### Delays -/

/-- A delay of a step table is of 1 (R88). -/
theorem delay_of_row {op : Op} {upc : BitVec 5} {n : Nibble} (hm : stepTable op upc = some (.action (.delayUs n))) :
    n = 1 := by
  obtain ⟨l, hl, -⟩ | ⟨hd, -⟩ | ⟨ha, -⟩ | ⟨hf, -⟩ := stepTable_kind hm
  · cases hl
  · cases hd
    rfl
  · cases ha
  · cases hf

theorem delayUs_notMem_recorded (n v : Nibble) (i : Instr) : .delayUs n ∉ recorded v i := by
  cases i <;> simp [recorded]

/-- A step of a running operation records no delay but of 1: none in a fallible row, 1 in a delay's, nothing else. -/
theorem RowStep.delays_are_one {op : Op} {upc : BitVec 5} {s t : State} (h : RowStep op upc s t) :
    ∃ es, gained s t es ∧ ∀ n, .delayUs n ∈ es → n = 1 := by
  cases h with
  | acted m i l v =>
    exact ⟨recorded (nibbleOf v) i, by simp [gained, afterOk], fun n hn => absurd hn (delayUs_notMem_recorded n _ i)⟩
  | failed i l x =>
    refine ⟨recorded 0 i ++ [Event.fail l], rfl, fun n hn => ?_⟩
    simp [delayUs_notMem_recorded] at hn
  | delayed => exact ⟨[.delayUs 1], rfl, by simp⟩
  | assembled => exact ⟨[], (explained_of_outside_eq (assembleStatus_outside op upc s)).1, by simp⟩
  | finished => exact ⟨[], (explained_of_outside_eq (endOp_outside .success s)).1, by simp⟩

theorem gained_unique {s t : State} {es es' : List Event} (h : gained s t es) (h' : gained s t es') : es = es' :=
  List.append_cancel_left (h.symm.trans h')

/-- Settles O14: a row's delay is of 1 (`delay_of_row`), so is what a step of a running operation records
(`RowStep.delays_are_one`), and Idle records nothing (`idleStep_outside`). -/
theorem delayOnlyRecords : Obligations.DelayOnlyRecords := by
  refine ⟨exec_delayUs, fun n op hn => rowsOf_eq_nil fun upc hm => hn (delay_of_row hm), ?_⟩
  intro s t es n hnew h hg hd
  cases hs : s.seq with
  | idle =>
    have hout := idleStep_outside (hnew hs) ((step_of_idle hs).symm.trans h)
    cases gained_unique hg (explained_of_outside_eq hout).1
    cases hd
  | run op upc =>
    obtain ⟨-, hr⟩ := rowStep_of_step hs h
    obtain ⟨es', hg', hone⟩ := hr.delays_are_one
    cases gained_unique hg hg'
    exact hone n hd

/-! ### The enable pulse -/

section Pulse

variable {s : State} {v w : Bus4} {x : ErrInfos}

/-- Actions that failed leave the one state their outcome names. -/
theorem failed_of_state {a : Acted} {t u : State} (ha : a = .failed t) (h : a.state = u) : a = .failed u := by
  rw [ha] at h ⊢
  exact congrArg Acted.failed h

theorem actEHigh_of_ok (h : s.answer = .ok v) : actEHigh s = .done (afterOk .eHigh (nibbleOf v) s) := act_of_ok h

theorem actELow_of_ok (h : s.answer = .ok v) : actELow s = .done (afterOk .eLow (nibbleOf v) s) := act_of_ok h

theorem actEHigh_of_err (h : s.answer = .err x) : actEHigh s = .failed (afterErr .eHigh .en x s) :=
  failed_of_state (act_of_err h) (Host.Outcome.next.inj (exec_of_err (i := .eHigh) rfl h))

theorem actELow_of_err (h : s.answer = .err x) : actELow s = .failed (afterErr .eLow .en x s) :=
  failed_of_state (act_of_err h) (Host.Outcome.next.inj (exec_of_err (i := .eLow) rfl h))

/-- The state in which a pulse drives E low: E is high and its delay has passed. -/
def midPulse (v : Nibble) (s : State) : State := delayUs 1 (afterOk .eHigh v s)

theorem midPulse_eq (v : Nibble) (s : State) : midPulse v s =
    { s with
      enQ := .H
      trace := s.trace ++ [.eHigh, .delayUs 1]
      tmr := 0
      env := s.env.tail
      draws := s.draws + 1 } := by
  have htrace : (midPulse v s).trace = s.trace ++ [Event.eHigh, .delayUs 1] := List.append_assoc _ _ _
  rw [← htrace]
  rfl

theorem afterOk_eLow (v : Nibble) (s : State) : afterOk .eLow v s =
    { s with enQ := .L, trace := s.trace ++ [.eLow], env := s.env.tail, draws := s.draws + 1 } := rfl

theorem afterErr_eLow (x : ErrInfos) (s : State) : afterErr .eLow .en x s =
    { s with
      enQ := .U
      seq := .idle
      res := some (.failed (.en x.en))
      trace := s.trace ++ [.eLow, .fail .en]
      env := s.env.tail
      draws := s.draws + 1 } := rfl

theorem midPulse_answer (v : Nibble) (s : State) : (midPulse v s).answer = s.answerAt 1 := answerAt_drawn s 0

/-- Once E is high a pulse has its delay, E_LOW and, if that did not fail, the second delay left. -/
theorem pulse_of_ok (h : s.answer = .ok v) : pulse s = (actELow (midPulse (nibbleOf v) s)).map (delayUs 1) := by
  rw [pulse, actEHigh_of_ok h]
  rfl

theorem exec_pulseEnable (s : State) : exec .pulseEnable s = .next (pulse s).state := rfl

theorem execPulse_of_ok_ok (hv : s.answerAt 0 = .ok v) (hw : s.answerAt 1 = .ok w) :
    exec .pulseEnable s = .next (delayUs 1 (afterOk .eLow (nibbleOf w) (midPulse (nibbleOf v) s))) := by
  rw [exec_pulseEnable, pulse_of_ok hv, actELow_of_ok ((midPulse_answer _ s).trans hw)]
  rfl

theorem execPulse_of_ok_err (hv : s.answerAt 0 = .ok v) (hx : s.answerAt 1 = .err x) :
    exec .pulseEnable s = .next (afterErr .eLow .en x (midPulse (nibbleOf v) s)) := by
  rw [exec_pulseEnable, pulse_of_ok hv, actELow_of_err ((midPulse_answer _ s).trans hx)]
  rfl

theorem execPulse_of_err (hx : s.answerAt 0 = .err x) : exec .pulseEnable s = .next (afterErr .eHigh .en x s) := by
  rw [exec_pulseEnable, pulse, actEHigh_of_err hx]
  rfl

end Pulse

section PulseRows

variable {op : Op} {upc : BitVec 5} {i : Instr} {l : Line} {s : State} {v : Bus4} {x : ErrInfos}

theorem runToIdle_of_err (fuel : Nat) (hs : s.seq = .run op upc) (hm : stepTable op upc = some (.action i))
    (hl : actionLine i = some l) (ha : s.answer = .err x) : runToIdle (fuel + 1) s = .next (afterErr i l x s) :=
  (runToIdle_of_step fuel hs (step_of_err hs hm rfl hl ha)).trans (runToIdle_of_idle fuel rfl)

/-- Half a pulse: an action answered ok and the delay in the row after it. -/
theorem runToIdle_of_ok_delay (fuel : Nat) {n : Nibble} (hs : s.seq = .run op upc)
    (hm : stepTable op upc = some (.action i)) (hd : stepTable op (upc + 1) = some (.action (.delayUs n)))
    (hl : actionLine i = some l) (ha : s.answer = .ok v) : runToIdle (fuel + 2) s =
      runToIdle fuel { delayUs n (afterOk i (nibbleOf v) s) with seq := .run op (upc + 1 + 1) } :=
  (runToIdle_of_step (fuel + 1) hs (step_of_ok hs hm rfl hl ha)).trans
    (runToIdle_of_step fuel rfl (step_of_delay rfl hd))

/-- Wherever a table has E_HIGH, the three rows that follow are the rest of a pulse (R110). -/
theorem pulse_rows (hm : stepTable op upc = some (.action .eHigh)) :
    stepTable op (upc + 1) = some (.action (.delayUs 1)) ∧ stepTable op (upc + 1 + 1) = some (.action .eLow) ∧
      stepTable op (upc + 1 + 1 + 1) = some (.action (.delayUs 1)) := by
  cases op with
  | state =>
    revert upc
    decide
  | write kind b =>
    rw [stepTable_write] at hm ⊢
    revert upc
    cases kind <;> decide

/-- The four rows of a pulse leave what PULSE_ENABLE leaves, by what the two drives are answered. -/
theorem runToIdle_pulse (hs : s.seq = .run op upc) (hm : stepTable op upc = some (.action .eHigh)) :
    ∃ t, exec .pulseEnable s = .next t ∧
      runToIdle 4 s = .next (if t.seq = .idle then t else { t with seq := .run op (upc + 4) }) := by
  obtain ⟨hdelayHigh, hlow, hdelayLow⟩ := pulse_rows hm
  cases hv : s.answerAt 0 with
  | err x => exact ⟨_, execPulse_of_err hv, runToIdle_of_err 3 hs hm rfl hv⟩
  | ok v =>
    have hmid : { midPulse (nibbleOf v) s with seq := .run op (upc + 1 + 1) }.answer = s.answerAt 1 :=
      midPulse_answer (nibbleOf v) s
    cases hw : s.answerAt 1 with
    | err x =>
      refine ⟨_, execPulse_of_ok_err hv hw, (runToIdle_of_ok_delay 2 hs hm hdelayHigh rfl hv).trans ?_⟩
      exact runToIdle_of_err 1 rfl hlow rfl (hmid.trans hw)
    | ok w =>
      have hrun : s.seq ≠ .idle := by simp [hs]
      have hfour : upc + 4 = upc + 1 + 1 + 1 + 1 := by bv_omega
      refine ⟨_, execPulse_of_ok_ok hv hw, (runToIdle_of_ok_delay 2 hs hm hdelayHigh rfl hv).trans ?_⟩
      refine (runToIdle_of_ok_delay 0 rfl hlow hdelayLow rfl (hmid.trans hw)).trans ?_
      rw [hfour]
      exact congrArg Host.Outcome.next (if_neg hrun).symm

end PulseRows

/-- Settles O15: PULSE_ENABLE by what its two drives are answered (`execPulse_of_ok_ok`, `execPulse_of_err`,
`execPulse_of_ok_err`), and the four rows of a table's pulse step by step (`runToIdle_pulse`). -/
theorem enablePulse : Obligations.EnablePulse := by
  refine ⟨rfl, fun s v w hv hw => ?_, fun s x hx => ?_, fun s v x hv hx => ?_,
    fun s op upc hs hrow => runToIdle_pulse hs (toNat_mem_rowsOf.mp hrow)⟩
  · rw [execPulse_of_ok_ok hv hw]
    simp [midPulse_eq, delayUs, State.record, afterOk_eLow]
  · rw [execPulse_of_err hx, List.drop_one]
    rfl
  · rw [execPulse_of_ok_err hv hx]
    simp [midPulse_eq, afterErr_eLow]

/-! ### The pins and the bus -/

/-- Settles O9: `exec_of_ok` and `exec_of_err` at the two RS actions, and the rows of the three tables. -/
theorem rsActions : Obligations.RsActions := by
  refine ⟨rfl, rfl, fun s v h => ⟨exec_of_ok rfl h, exec_of_ok rfl h⟩,
    fun s x h => ⟨exec_of_err (l := .rs) rfl h, exec_of_err (l := .rs) rfl h⟩, by decide, by decide, fun b => ?_⟩
  simp only [rowsOf_write _ _ b]
  decide

/-- Settles O10: `exec_of_ok` and `exec_of_err` at the two RW actions, and the rows of the three tables. -/
theorem rwActions : Obligations.RwActions := by
  refine ⟨rfl, rfl, fun s v h => ⟨exec_of_ok rfl h, exec_of_ok rfl h⟩,
    fun s x h => ⟨exec_of_err (l := .rw) rfl h, exec_of_err (l := .rw) rfl h⟩, by decide, by decide, fun kind b => ?_⟩
  simp only [rowsOf_write _ _ b]
  cases kind <;> decide

/-- Settles O11: `exec_of_ok` and `exec_of_err` at the two E actions, and the rows of the three tables. -/
theorem enableActions : Obligations.EnableActions := by
  refine ⟨rfl, rfl, fun s v h => ⟨exec_of_ok rfl h, exec_of_ok rfl h⟩,
    fun s x h => ⟨exec_of_err (l := .en) rfl h, exec_of_err (l := .en) rfl h⟩, fun op => ?_, by decide, fun kind b => ?_⟩
  · cases op with
    | state => decide
    | write kind b =>
      simp only [rowsOf_write _ _ b]
      cases kind <;> decide
  · rw [rowsOf_write]
    cases kind <;> decide

/-- A bus write's nibble is a latch's, so no row of a table is a bus write of a fixed nibble. -/
theorem row_ne_busWrite (v : Nibble) (op : Op) (upc : BitVec 5) : stepTable op upc ≠ some (.action (.busWrite v)) := by
  intro hm
  obtain ⟨-, hp⟩ | ⟨kind, b, -, -, hd⟩ := stepTable_cases hm
  · unfold pollTable at hp
    split at hp <;> cases hp
  · unfold dataTable at hd
    split at hd <;> cases kind <;> cases hd

/-- Settles O12: `exec_of_ok` and `exec_of_err` at BUS_WRITE, and the rows that put a nibble latch on the bus. -/
theorem busWriteAction : Obligations.BusWriteAction := by
  refine ⟨fun v => ?_, fun v s x h => exec_of_ok rfl h, fun v s x h => exec_of_err (l := .bus) rfl h, by decide,
    fun kind b => ?_, fun v op => rowsOf_eq_nil (row_ne_busWrite v op), rfl⟩
  · have hbits : (Event.busWrite v).evt8.toNat = 0x70 ||| v.toNat := BitVec.toNat_append 0x7#4 v
    rw [encode, Code.ofEvent, hbits]
  · simp only [rowsWhere_write _ _ b]
    cases kind <;> decide

/-- Settles O13: `exec_of_ok` and `exec_of_err` at BUS_READ. -/
theorem busReadAction : Obligations.BusReadAction :=
  ⟨fun _ _ _ h => exec_of_ok rfl h, fun _ _ _ h => exec_of_err (l := .bus) rfl h⟩

/-! ### The pure functions -/

theorem decodeStatus_addr_mod (v : Byte) : (decodeStatus v).addr.toNat = v.toNat % 128 := by
  rw [decodeStatus_eq]
  exact BitVec.toNat_setWidth 7 v

/-- Settles O17: the values as numbers are those of the byte layout (`lo4_toNat`, `hi4_toNat`, `join_toNat`,
`decodeStatus_eq`). -/
theorem pureFunctions : Obligations.PureFunctions :=
  ⟨fun b _ => ⟨lo4 b, hi4 b, lo4_toNat b, hi4_toNat b, rfl⟩, fun l h _ => ⟨join l h, join_toNat l h, rfl⟩,
    fun v _ => ⟨decodeStatus v, BitVec.msb_eq_decide v, decodeStatus_addr_mod v, rfl⟩⟩

end Sys2Proof.Machine

/-! PROOFS. The two step tables against the pseudocode of POLL, STATE and WRITE: a stretch of rows does what a part of a
listing does, and stretches are put together as the listing is (41_status_poll.md R121, 42_write.md R131). -/

namespace Sys2Proof.Machine

/-! ### The primitives of the listings -/

/-- A fallible primitive by what it is answered: the whole next state of either outcome. -/
def attempt (i : Instr) (l : Line) (s : State) : Acted :=
  match s.answer with
  | .ok v => .done (afterOk i (nibbleOf v) s)
  | .err x => .failed (afterErr i l x s)

section Attempt

variable {i : Instr} {l : Line} {s : State} {v : Bus4} {x : ErrInfos}

theorem attempt_of_ok (h : s.answer = .ok v) : attempt i l s = .done (afterOk i (nibbleOf v) s) := by
  simp only [attempt, h]

theorem attempt_of_err (h : s.answer = .err x) : attempt i l s = .failed (afterErr i l x s) := by
  simp only [attempt, h]

/-- An action of the listings that `exec` performs for a primitive is that primitive's attempt. -/
theorem act_eq_attempt {e : Event} {write : State → State} (hl : actionLine i = some l)
    (hexec : exec i s = .next (act e l write s).state) : act e l write s = attempt i l s := by
  cases h : s.answer with
  | ok v =>
    rw [exec_of_ok hl h, act_of_ok h] at hexec
    rw [act_of_ok h, attempt_of_ok h]
    exact congrArg Acted.done (Host.Outcome.next.inj hexec).symm
  | err x =>
    rw [exec_of_err hl h] at hexec
    rw [attempt_of_err h]
    exact failed_of_state (act_of_err h) (Host.Outcome.next.inj hexec).symm

end Attempt

theorem actRsLow_eq (s : State) : actRsLow s = attempt .rsLow .rs s := act_eq_attempt rfl rfl

theorem actRsHigh_eq (s : State) : actRsHigh s = attempt .rsHigh .rs s := act_eq_attempt rfl rfl

theorem actRwLow_eq (s : State) : actRwLow s = attempt .rwLow .rw s := act_eq_attempt rfl rfl

theorem actRwHigh_eq (s : State) : actRwHigh s = attempt .rwHigh .rw s := act_eq_attempt rfl rfl

theorem actEHigh_eq (s : State) : actEHigh s = attempt .eHigh .en s := act_eq_attempt rfl rfl

theorem actELow_eq (s : State) : actELow s = attempt .eLow .en s := act_eq_attempt rfl rfl

theorem actBusWrite_eq (v : Nibble) (s : State) : actBusWrite v s = attempt (.busWrite v) .bus s := act_eq_attempt rfl rfl

theorem actRs_eq (kind : Kind) (s : State) : actRs kind s = attempt (rsAction kind) .rs s := by
  cases kind with
  | instr => exact actRsLow_eq s
  | data => exact actRsHigh_eq s

theorem actBusRead_eq (s : State) : actBusRead s = attempt (.busRead 0) .bus s := by
  cases h : s.answer with
  | ok v =>
    rw [actBusRead_of_ok h, attempt_of_ok h]
    rfl
  | err x =>
    rw [attempt_of_err h]
    exact failed_of_state (actBusRead_of_err h) (Host.Outcome.next.inj (exec_of_err (i := .busRead 0) rfl h))

/-- `lo_q <- BUS_READ()` is the read with what its row stores. -/
theorem readIntoLo_eq (s : State) : readIntoLo s = (attempt (.busRead 0) .bus s).map (storeYield .readLo) := by
  cases h : s.answer with
  | ok v =>
    simp only [readIntoLo, h, actBusRead_eq, attempt_of_ok h]
    rfl
  | err x => simp only [readIntoLo, h, actBusRead_eq, attempt_of_err h, Acted.map_failed]

theorem readIntoHi_eq (s : State) : readIntoHi s = (attempt (.busRead 0) .bus s).map (storeYield .readHi) := by
  cases h : s.answer with
  | ok v =>
    simp only [readIntoHi, h, actBusRead_eq, attempt_of_ok h]
    rfl
  | err x => simp only [readIntoHi, h, actBusRead_eq, attempt_of_err h, Acted.map_failed]

/-! ### A stretch of rows -/

/-- Going on after actions: a failure has ended the operation. -/
def Acted.thenRun (x : Acted) (k : State → Host.Outcome State Fault Refusal) : Host.Outcome State Fault Refusal :=
  match x with
  | .done t => k t
  | .failed t => .next t

/-- The operation from step `upc` on, as many steps as its table has left. -/
def runFrom (op : Op) (upc : BitVec 5) (s : State) : Host.Outcome State Fault Refusal :=
  runToIdle (opSteps op - upc.toNat) { s with seq := .run op upc }

theorem runFrom_of_step {op : Op} {upc : BitVec 5} {m : Micro} {s t : State} (hm : stepTable op upc = some m)
    (h : step { s with seq := .run op upc } = .next t) : runFrom op upc s = runToIdle (opSteps op - (upc + 1).toNat) t := by
  have hle := le_lastStep_of_row hm
  have hfuel : opSteps op - upc.toNat = opSteps op - (upc + 1).toNat + 1 := by
    rw [upc_toNat_succ hle, opSteps_eq]
    omega
  rw [runFrom, hfuel]
  exact runToIdle_of_step _ rfl h

/-- From step `a` of `op` to step `b` the rows do what `f` does, in a state whose nibble latches satisfy `P`, and leave
such a state; a failure ends the operation. -/
structure RowsDo (P : Nibble → Nibble → Prop) (op : Op) (a b : BitVec 5) (f : State → Acted) : Prop where
  run : ∀ s, P s.loQ s.hiQ → runFrom op a s = (f s).thenRun (runFrom op b)
  keeps : ∀ s t, P s.loQ s.hiQ → f s = .done t → P t.loQ t.hiQ

namespace RowsDo

variable {P : Nibble → Nibble → Prop} {op : Op} {a b c : BitVec 5} {f g : State → Acted}
  {i : Instr} {l : Line} {m : Micro}

theorem andThen (hf : RowsDo P op a b f) (hg : RowsDo P op b c g) : RowsDo P op a c fun s => (f s).andThen g where
  run s hs := by
    rw [hf.run s hs]
    cases h : f s with
    | done t => exact hg.run t (hf.keeps s t hs h)
    | failed t => rfl
  keeps s t hs h := by
    cases hu : f s with
    | done u =>
      simp only [hu, Acted.andThen_done] at h
      exact hg.keeps u t (hf.keeps s u hs hu) h
    | failed u => simp [hu] at h

theorem congr (hf : RowsDo P op a b f) (h : ∀ s, g s = f s) : RowsDo P op a b g :=
  (funext h : g = f) ▸ hf

/-- A row that performs a fallible primitive. -/
theorem of_row (hm : stepTable op a = some m) (hi : ∀ s, P s.loQ s.hiQ → microInstr m s = some i)
    (hl : actionLine i = some l) (hP : ∀ s, P s.loQ s.hiQ → P (storeYield m s).loQ (storeYield m s).hiQ) :
    RowsDo P op a (a + 1) fun s => (attempt i l s).map (storeYield m) where
  run s hs := by
    have hrow := hi { s with seq := .run op a } hs
    cases h : s.answer with
    | ok v =>
      rw [runFrom_of_step hm (step_of_ok rfl hm hrow hl h), attempt_of_ok h]
      cases m <;> rfl
    | err x =>
      rw [runFrom_of_step hm (step_of_err rfl hm hrow hl h), attempt_of_err h]
      exact runToIdle_of_idle _ rfl
  keeps s t hs h := by
    cases ha : s.answer with
    | ok v =>
      rw [attempt_of_ok ha] at h
      cases h
      exact hP (afterOk i (nibbleOf v) s) hs
    | err x =>
      rw [attempt_of_err ha] at h
      cases h

/-- A row that stores nothing is its primitive alone. -/
theorem of_storing_none (hm : stepTable op a = some m) (hi : ∀ s, P s.loQ s.hiQ → microInstr m s = some i)
    (hl : actionLine i = some l) (hst : storeYield m = id) : RowsDo P op a (a + 1) (attempt i l) := by
  refine (of_row hm hi hl (by simp [hst])).congr fun s => ?_
  rw [hst]
  cases attempt i l s <;> rfl

theorem of_action (hm : stepTable op a = some (.action i)) (hl : actionLine i = some l) :
    RowsDo P op a (a + 1) (attempt i l) :=
  of_storing_none hm (fun _ _ => rfl) hl rfl

/-- A delay after other rows. -/
theorem delay {n : Nibble} (hf : RowsDo P op a b f) (hm : stepTable op b = some (.action (.delayUs n))) :
    RowsDo P op a (b + 1) fun s => (f s).map (delayUs n) := by
  have hdelay : RowsDo P op b (b + 1) fun s => .done (delayUs n s) := by
    refine ⟨fun s _ => runFrom_of_step hm (step_of_delay rfl hm), fun s t hs h => ?_⟩
    cases h
    exact hs
  refine (hf.andThen hdelay).congr fun s => ?_
  cases f s <;> rfl

/-- The four rows of a pulse (R110). -/
theorem pulse (hm : stepTable op a = some (.action .eHigh)) : RowsDo P op a (a + 1 + 1 + 1 + 1) pulse := by
  obtain ⟨hdelayHigh, hlow, hdelayLow⟩ := pulse_rows hm
  refine ((((of_action hm rfl).delay hdelayHigh).andThen (of_action hlow rfl)).delay hdelayLow).congr fun s => ?_
  rw [Machine.pulse, actEHigh_eq]
  simp only [funext actELow_eq]
  rfl

end RowsDo

/-! ### The phases -/

/-- The twelve actions of POLL, before the join (R121). -/
def pollActions (s : State) : Acted :=
  (((((actRsLow s).andThen actRwHigh).andThen pulse).andThen readIntoLo).andThen pulse).andThen readIntoHi

theorem pollProc_eq (s : State) : pollProc s = (pollActions s).map fun t => { t with sr := join t.loQ t.hiQ } := rfl

/-- The six actions and pulses of the data phase, the operand split before (R133). -/
def dataActions (kind : Kind) (b : Byte) (s : State) : Acted :=
  (((((actRs kind s).andThen actRwLow).andThen (actBusWrite (lo4 b))).andThen pulse).andThen
    (actBusWrite (hi4 b))).andThen pulse

theorem dataProc_eq (kind : Kind) (b : Byte) (s : State) :
    dataProc kind b s = dataActions kind b { s with loQ := lo4 b, hiQ := hi4 b } := rfl

/-- Steps 0 to 11 of every operation are the actions of POLL. -/
theorem rowsDo_pollActions (op : Op) : RowsDo (fun _ _ => True) op 0 12 pollActions := by
  have haddress : RowsDo (fun _ _ => True) op 0 2 fun s => (actRsLow s).andThen actRwHigh := by
    rw [funext actRsLow_eq, funext actRwHigh_eq]
    exact (RowsDo.of_action (a := 0) rfl rfl).andThen (RowsDo.of_action (a := 1) rfl rfl)
  have hlo : RowsDo (fun _ _ => True) op 6 7 readIntoLo :=
    (RowsDo.of_row (a := 6) rfl (fun _ _ => rfl) rfl fun _ h => h).congr readIntoLo_eq
  have hhi : RowsDo (fun _ _ => True) op 11 12 readIntoHi :=
    (RowsDo.of_row (a := 11) rfl (fun _ _ => rfl) rfl fun _ h => h).congr readIntoHi_eq
  exact (((haddress.andThen (RowsDo.pulse (a := 2) rfl)).andThen hlo).andThen (RowsDo.pulse (a := 7) rfl)).andThen hhi

/-- Steps 13 to 24 of a write, the operand in the nibble latches, are the actions of the data phase. -/
theorem rowsDo_dataActions (kind : Kind) (b : Byte) :
    RowsDo (fun l h => l = lo4 b ∧ h = hi4 b) (.write kind b) 13 25 (dataActions kind b) := by
  have hrs : RowsDo (fun l h => l = lo4 b ∧ h = hi4 b) (.write kind b) 13 14 (actRs kind) :=
    (RowsDo.of_action (a := 13) rfl (by cases kind <;> rfl)).congr (actRs_eq kind)
  have hrw : RowsDo (fun l h => l = lo4 b ∧ h = hi4 b) (.write kind b) 14 15 actRwLow :=
    (RowsDo.of_action (a := 14) rfl rfl).congr actRwLow_eq
  have hlo : RowsDo (fun l h => l = lo4 b ∧ h = hi4 b) (.write kind b) 15 16 (actBusWrite (lo4 b)) := by
    refine (RowsDo.of_storing_none (a := 15) (m := .writeLo) rfl ?_ rfl rfl).congr (actBusWrite_eq _)
    rintro s ⟨hl, -⟩
    rw [microInstr, hl]
  have hhi : RowsDo (fun l h => l = lo4 b ∧ h = hi4 b) (.write kind b) 20 21 (actBusWrite (hi4 b)) := by
    refine (RowsDo.of_storing_none (a := 20) (m := .writeHi) rfl ?_ rfl rfl).congr (actBusWrite_eq _)
    rintro s ⟨-, hh⟩
    rw [microInstr, hh]
  exact ((((hrs.andThen hrw).andThen hlo).andThen (RowsDo.pulse (a := 16) rfl)).andThen hhi).andThen
    (RowsDo.pulse (a := 21) rfl)

/-! ### The internal completions -/

theorem runFrom_of_completion {op : Op} {upc : BitVec 5} {m : Micro} {s : State} (hm : stepTable op upc = some m)
    (hi : ∀ u, microInstr m u = none) :
    runFrom op upc s = runToIdle (opSteps op - (upc + 1).toNat) (complete m op upc { s with seq := .run op upc }) :=
  runFrom_of_step hm (step_of_complete rfl hm (hi _))

/-- Step 12 of a poll. -/
theorem runFrom_state_12 (s : State) : runFrom .state 12 s =
    .next (endOp (.successStatus (join s.loQ s.hiQ)) { s with sr := join s.loQ s.hiQ }) :=
  (runFrom_of_completion (m := .assemble) rfl fun _ => rfl).trans (runToIdle_of_idle _ rfl)

/-- Step 12 of a write that is busy. -/
theorem runFrom_write_12_of_busy (kind : Kind) (b : Byte) {s : State} (h : busyFlag (join s.loQ s.hiQ) = true) :
    runFrom (.write kind b) 12 s = .next (endOp .retryLater { s with sr := join s.loQ s.hiQ }) := by
  rw [runFrom_of_completion (m := .assemble) rfl fun _ => rfl]
  simp only [complete, assembleStatus, h, if_true]
  exact runToIdle_of_idle _ rfl

/-- Step 12 of a write that is not busy: the operand is split into the nibble latches. -/
theorem runFrom_write_12_of_not_busy (kind : Kind) (b : Byte) {s : State} (h : busyFlag (join s.loQ s.hiQ) = false) :
    runFrom (.write kind b) 12 s =
      runFrom (.write kind b) 13 { s with sr := join s.loQ s.hiQ, loQ := lo4 b, hiQ := hi4 b } := by
  rw [runFrom_of_completion (m := .assemble) rfl fun _ => rfl]
  simp only [complete, assembleStatus, h]
  rfl

/-- Step 25. -/
theorem runFrom_write_25 (kind : Kind) (b : Byte) (s : State) :
    runFrom (.write kind b) 25 s = .next (endOp .success s) :=
  (runFrom_of_completion (m := .finish) rfl fun _ => rfl).trans (runToIdle_of_idle _ rfl)

/-! ### The operations -/

theorem runFrom_state (s : State) : runFrom .state 0 s = .next (stateProc s) := by
  rw [(rowsDo_pollActions .state).run s trivial, stateProc, pollProc_eq]
  cases pollActions s with
  | done t => exact runFrom_state_12 t
  | failed t => rfl

/-- A write past its busy test: the data phase and, if it did not fail, step 25. -/
theorem runFrom_write_13 (kind : Kind) (b : Byte) {s : State} (hlo : s.loQ = lo4 b) (hhi : s.hiQ = hi4 b) :
    runFrom (.write kind b) 13 s = (dataActions kind b s).thenRun fun t => .next (endOp .success t) := by
  rw [(rowsDo_dataActions kind b).run s ⟨hlo, hhi⟩, funext (runFrom_write_25 kind b)]

theorem runFrom_write (kind : Kind) (b : Byte) (s : State) :
    runFrom (.write kind b) 0 s = .next (writeProc kind b s) := by
  rw [(rowsDo_pollActions (.write kind b)).run s trivial, writeProc, pollProc_eq]
  cases pollActions s with
  | failed t => rfl
  | done t =>
    simp only [Acted.thenRun, Acted.map_done]
    cases h : busyFlag (join t.loQ t.hiQ) with
    | true => exact runFrom_write_12_of_busy kind b h
    | false =>
      rw [runFrom_write_12_of_not_busy kind b h, runFrom_write_13 kind b rfl rfl, dataProc_eq]
      cases dataActions kind b { t with sr := join t.loQ t.hiQ, loQ := lo4 b, hiQ := hi4 b } <;> rfl

/-- Settles O51: both phases row by row (`rowsDo_pollActions`, `rowsDo_dataActions`) with the completions between them. -/
theorem stepTablesMeetPseudocode : Obligations.StepTablesMeetPseudocode := by
  intro s op cmd
  cases op with
  | state => exact runFrom_state (startOp .state cmd s)
  | write kind b => exact runFrom_write kind b (startOp (.write kind b) cmd s)

end Sys2Proof.Machine

/-! PROOFS. What a poll leaves, by what its eight fallible actions are answered, and the counts of an operation by its
result (41_status_poll.md R120 to R126, 42_write.md R140, 70_reset_and_hazards.md R226). -/

namespace Sys2Proof.Machine

/-! ### Answers to come -/

/-- What is answered ok is answered ok with the levels of its nibble. -/
theorem answerAt_of_okFor {n k : Nat} {s : State} (h : okFor n s) (hk : k < n) :
    s.answerAt k = .ok (levelsOf (nibbleAt s k)) := by
  obtain ⟨v, hv⟩ := h k hk
  simp only [nibbleAt, hv, levelsOf_nibbleOf]

theorem okFor_mono {m n : Nat} {s : State} (h : okFor n s) (hmn : m ≤ n) : okFor m s :=
  fun k hk => h k (hk.trans_le hmn)

/-- The next `n` actions are all answered ok, or there is a first that is answered err. -/
theorem okFor_or_first_err (n : Nat) (s : State) :
    okFor n s ∨ ∃ k x, k < n ∧ okFor k s ∧ s.answerAt k = .err x := by
  induction n with
  | zero => exact .inl fun k hk => absurd hk (Nat.not_lt_zero k)
  | succ n ih =>
    obtain hok | ⟨k, x, hk, hfirst⟩ := ih
    · cases h : s.answerAt n with
      | ok v =>
        refine .inl fun k hk => ?_
        obtain hlt | rfl := Nat.lt_succ_iff_lt_or_eq.mp hk
        · exact hok k hlt
        · exact ⟨v, h⟩
      | err x => exact .inr ⟨n, x, Nat.lt_succ_self n, hok, h⟩
    · exact .inr ⟨k, x, Nat.lt_succ_of_lt hk, hfirst⟩

/-! ### The stages of a poll -/

/-- RS low and RW high: the status register is addressed. -/
def addressed (s : State) : State :=
  { s with rsQ := .L, rwQ := .H, trace := s.trace ++ [.rsLow, .rwHigh], env := s.env.drop 2, draws := s.draws + 2 }

/-- A complete enable pulse. -/
def pulsed (s : State) : State :=
  { s with enQ := .L, tmr := 0, trace := s.trace ++ pulseHistory, env := s.env.drop 2, draws := s.draws + 2 }

/-- A nibble read and stored by the row `m`. -/
def readInto (m : Micro) (v : Nibble) (s : State) : State := storeYield m (afterOk (.busRead 0) v s)

section Stages

variable {s : State} {v w : Bus4} {x : ErrInfos}

@[simp] theorem answerAt_afterOk (i : Instr) (v : Nibble) (s : State) (k : Nat) :
    (afterOk i v s).answerAt k = s.answerAt (k + 1) := answerAt_drawn s k

@[simp] theorem answerAt_addressed (s : State) (k : Nat) : (addressed s).answerAt k = s.answerAt (2 + k) :=
  answerAt_drawnBy 2 s k

@[simp] theorem answerAt_pulsed (s : State) (k : Nat) : (pulsed s).answerAt k = s.answerAt (2 + k) :=
  answerAt_drawnBy 2 s k

@[simp] theorem answerAt_readInto (m : Micro) (v : Nibble) (s : State) (k : Nat) :
    (readInto m v s).answerAt k = s.answerAt (k + 1) := by
  cases m <;> exact answerAt_drawn s k

theorem address_of_ok_ok (hv : s.answerAt 0 = .ok v) (hw : s.answerAt 1 = .ok w) :
    (actRsLow s).andThen actRwHigh = .done (addressed s) := by
  rw [actRsLow_eq, attempt_of_ok hv, Acted.andThen_done, actRwHigh_eq, attempt_of_ok ((answerAt_afterOk _ _ s 0).trans hw)]
  simp [addressed, afterOk, recorded, rsAfter, rwAfter, enAfter, dbAfter, outAfter]

theorem pulse_of_ok_ok (hv : s.answerAt 0 = .ok v) (hw : s.answerAt 1 = .ok w) : pulse s = .done (pulsed s) := by
  rw [pulse_of_ok hv, actELow_of_ok ((midPulse_answer _ s).trans hw)]
  simp [midPulse_eq, afterOk_eLow, pulsed, pulseHistory, delayUs, State.record]

theorem pulse_of_err (hx : s.answerAt 0 = .err x) : pulse s = .failed (afterErr .eHigh .en x s) := by
  rw [pulse, actEHigh_of_err hx]
  rfl

theorem pulse_of_ok_err (hv : s.answerAt 0 = .ok v) (hx : s.answerAt 1 = .err x) :
    pulse s = .failed (afterErr .eLow .en x (midPulse (nibbleOf v) s)) := by
  rw [pulse_of_ok hv, actELow_of_err ((midPulse_answer _ s).trans hx)]
  rfl

theorem readIntoLo_of_ok (hv : s.answerAt 0 = .ok v) : readIntoLo s = .done (readInto .readLo (nibbleOf v) s) := by
  rw [readIntoLo_eq, attempt_of_ok hv]
  rfl

theorem readIntoHi_of_ok (hv : s.answerAt 0 = .ok v) : readIntoHi s = .done (readInto .readHi (nibbleOf v) s) := by
  rw [readIntoHi_eq, attempt_of_ok hv]
  rfl

theorem readIntoLo_of_err (hx : s.answerAt 0 = .err x) : readIntoLo s = .failed (afterErr (.busRead 0) .bus x s) := by
  rw [readIntoLo_eq, attempt_of_err hx]
  rfl

theorem readIntoHi_of_err (hx : s.answerAt 0 = .err x) : readIntoHi s = .failed (afterErr (.busRead 0) .bus x s) := by
  rw [readIntoHi_eq, attempt_of_err hx]
  rfl

end Stages

/-- Before the first read of a poll. -/
def beforeLowRead (s : State) : State := pulsed (addressed s)

/-- Before the second pulse of a poll. -/
def afterLowRead (s : State) : State := readInto .readLo (nibbleAt s 4) (beforeLowRead s)

/-- Before the second read of a poll. -/
def beforeHighRead (s : State) : State := pulsed (afterLowRead s)

@[simp] theorem answerAt_beforeLowRead (s : State) (k : Nat) : (beforeLowRead s).answerAt k = s.answerAt (4 + k) := by
  simp only [beforeLowRead, answerAt_pulsed, answerAt_addressed, ← Nat.add_assoc]

@[simp] theorem answerAt_afterLowRead (s : State) (k : Nat) : (afterLowRead s).answerAt k = s.answerAt (5 + k) := by
  simp only [afterLowRead, answerAt_readInto, answerAt_beforeLowRead]
  congr 1
  omega

@[simp] theorem answerAt_beforeHighRead (s : State) (k : Nat) : (beforeHighRead s).answerAt k = s.answerAt (7 + k) := by
  simp only [beforeHighRead, answerAt_pulsed, answerAt_afterLowRead, ← Nat.add_assoc]

theorem afterOk_rsLow (v : Nibble) (s : State) : afterOk .rsLow v s =
    { s with rsQ := .L, trace := s.trace ++ [.rsLow], env := s.env.tail, draws := s.draws + 1 } := rfl

theorem readInto_readLo (v : Nibble) (s : State) : readInto .readLo v s =
    { s with
      loQ := v
      out := some (.nibble v)
      trace := s.trace ++ [.busRead v]
      env := s.env.tail
      draws := s.draws + 1 } := rfl

theorem readInto_readHi (v : Nibble) (s : State) : readInto .readHi v s =
    { s with
      hiQ := v
      out := some (.nibble v)
      trace := s.trace ++ [.busRead v]
      env := s.env.tail
      draws := s.draws + 1 } := rfl

theorem beforeLowRead_eq (s : State) : beforeLowRead s =
    { s with
      rsQ := .L, rwQ := .H, enQ := .L, tmr := 0
      trace := s.trace ++ ([.rsLow, .rwHigh] ++ pulseHistory)
      env := s.env.drop 4
      draws := s.draws + 4 } := by
  simp [beforeLowRead, pulsed, addressed]

theorem afterLowRead_eq (s : State) : afterLowRead s =
    { s with
      rsQ := .L, rwQ := .H, enQ := .L, loQ := nibbleAt s 4, tmr := 0
      trace := s.trace ++ ([.rsLow, .rwHigh] ++ pulseHistory ++ [.busRead (nibbleAt s 4)])
      out := some (.nibble (nibbleAt s 4))
      env := s.env.drop 5
      draws := s.draws + 5 } := by
  simp [afterLowRead, readInto_readLo, beforeLowRead_eq]

theorem beforeHighRead_eq (s : State) : beforeHighRead s =
    { s with
      rsQ := .L, rwQ := .H, enQ := .L, loQ := nibbleAt s 4, tmr := 0
      trace := s.trace ++ ([.rsLow, .rwHigh] ++ pulseHistory ++ [.busRead (nibbleAt s 4)] ++ pulseHistory)
      out := some (.nibble (nibbleAt s 4))
      env := s.env.drop 7
      draws := s.draws + 7 } := by
  simp [beforeHighRead, pulsed, afterLowRead_eq]

section OnTheWay

variable {s : State}

theorem poll_address (h : okFor 2 s) : (actRsLow s).andThen actRwHigh = .done (addressed s) :=
  address_of_ok_ok (answerAt_of_okFor h (by decide)) (answerAt_of_okFor h (by decide))

theorem poll_beforeLowRead (h : okFor 4 s) :
    ((actRsLow s).andThen actRwHigh).andThen pulse = .done (beforeLowRead s) := by
  rw [poll_address (okFor_mono h (by decide)), Acted.andThen_done]
  exact pulse_of_ok_ok ((answerAt_addressed s 0).trans (answerAt_of_okFor h (by decide)))
    ((answerAt_addressed s 1).trans (answerAt_of_okFor h (by decide)))

theorem poll_afterLowRead (h : okFor 5 s) :
    (((actRsLow s).andThen actRwHigh).andThen pulse).andThen readIntoLo = .done (afterLowRead s) := by
  rw [poll_beforeLowRead (okFor_mono h (by decide)), Acted.andThen_done,
    readIntoLo_of_ok ((answerAt_beforeLowRead s 0).trans (answerAt_of_okFor h (by decide))), nibbleOf_levelsOf]
  rfl

theorem poll_beforeHighRead (h : okFor 7 s) :
    ((((actRsLow s).andThen actRwHigh).andThen pulse).andThen readIntoLo).andThen pulse =
      .done (beforeHighRead s) := by
  rw [poll_afterLowRead (okFor_mono h (by decide)), Acted.andThen_done]
  exact pulse_of_ok_ok ((answerAt_afterLowRead s 0).trans (answerAt_of_okFor h (by decide)))
    ((answerAt_afterLowRead s 1).trans (answerAt_of_okFor h (by decide)))

end OnTheWay

/-! ### A poll answered ok -/

/-- The state a poll leaves whose actions are all answered ok. -/
def polled (s : State) : State :=
  { s with
    rsQ := .L, rwQ := .H, enQ := .L, loQ := nibbleAt s 4, hiQ := nibbleAt s 7, sr := polledByte s, tmr := 0
    trace := s.trace ++ pollHistory (nibbleAt s 4) (nibbleAt s 7)
    out := some (.nibble (nibbleAt s 7))
    env := s.env.drop 8
    draws := s.draws + 8 }

theorem pollProc_of_okFor {s : State} (h : okFor 8 s) : pollProc s = .done (polled s) := by
  have hread := readIntoHi_of_ok ((answerAt_beforeHighRead s 0).trans (answerAt_of_okFor h (by decide)))
  rw [pollProc_eq, pollActions, poll_beforeHighRead (okFor_mono h (by decide)), Acted.andThen_done, hread,
    nibbleOf_levelsOf, Acted.map_done]
  simp [polled, polledByte, pollHistory, readInto_readHi, beforeHighRead_eq]

/-! ### A poll that fails -/

/-- The `k`-th fallible action of a poll. -/
def pollInstr : Nat → Instr
  | 0 => .rsLow
  | 1 => .rwHigh
  | 2 => .eHigh
  | 3 => .eLow
  | 5 => .eHigh
  | 6 => .eLow
  | _ => .busRead 0

/-- The state in which a poll performs it, all before it answered ok. -/
def pollState (s : State) : Nat → State
  | 0 => s
  | 1 => afterOk .rsLow 0 s
  | 2 => addressed s
  | 3 => midPulse 0 (addressed s)
  | 4 => beforeLowRead s
  | 5 => afterLowRead s
  | 6 => midPulse 0 (afterLowRead s)
  | _ => beforeHighRead s

/-- An attempt that fails in the state the poll has come to is the poll's failure. -/
theorem pollProc_of_err {k : Nat} {x : ErrInfos} {s : State} (hk : k < 8) (hok : okFor k s)
    (hx : s.answerAt k = .err x) :
    pollProc s = .failed (afterErr (pollInstr k) (pollLine k) x (pollState s k)) := by
  rw [pollProc_eq, pollActions]
  match k with
  | 0 =>
    rw [actRsLow_eq, attempt_of_err hx]
    rfl
  | 1 =>
    rw [actRsLow_eq, attempt_of_ok (answerAt_of_okFor hok Nat.one_pos), Acted.andThen_done, actRwHigh_eq,
      attempt_of_err ((answerAt_afterOk _ _ s 0).trans hx)]
    rfl
  | 2 =>
    rw [poll_address hok, Acted.andThen_done, pulse_of_err ((answerAt_addressed s 0).trans hx)]
    rfl
  | 3 =>
    rw [poll_address (okFor_mono hok (by decide)), Acted.andThen_done,
      pulse_of_ok_err ((answerAt_addressed s 0).trans (answerAt_of_okFor hok (by decide)))
        ((answerAt_addressed s 1).trans hx)]
    rfl
  | 4 =>
    rw [poll_beforeLowRead hok, Acted.andThen_done, readIntoLo_of_err ((answerAt_beforeLowRead s 0).trans hx)]
    rfl
  | 5 =>
    rw [poll_afterLowRead hok, Acted.andThen_done, pulse_of_err ((answerAt_afterLowRead s 0).trans hx)]
    rfl
  | 6 =>
    rw [poll_afterLowRead (okFor_mono hok (by decide)), Acted.andThen_done,
      pulse_of_ok_err ((answerAt_afterLowRead s 0).trans (answerAt_of_okFor hok (by decide)))
        ((answerAt_afterLowRead s 1).trans hx)]
    rfl
  | 7 =>
    rw [poll_beforeHighRead hok, Acted.andThen_done, readIntoHi_of_err ((answerAt_beforeHighRead s 0).trans hx)]
    rfl

/-- The state a poll leaves whose `k`-th fallible action fails with the values `x`. -/
def pollFailed (k : Nat) (x : ErrInfos) (s : State) : State :=
  { s with
    rsQ := failedPollRs k, rwQ := failedPollRw s.rwQ k, enQ := failedPollEn s.enQ k, seq := .idle
    loQ := if k < 5 then s.loQ else nibbleAt s 4
    out := if k < 5 then s.out else some (.nibble (nibbleAt s 4))
    res := some (.failed (failureOn (pollLine k) x))
    tmr := if k < 3 then s.tmr else 0
    trace := s.trace ++ (failedPoll (nibbleAt s 4) k ++ [.fail (pollLine k)])
    env := s.env.drop (k + 1)
    draws := s.draws + (k + 1) }

theorem afterErr_pollState {k : Nat} (hk : k < 8) (x : ErrInfos) (s : State) :
    afterErr (pollInstr k) (pollLine k) x (pollState s k) = pollFailed k x s := by
  interval_cases k <;>
    simp [afterErr, pollInstr, pollLine, pollState, pollFailed, dbLost, recorded, failedPollRs, failedPollRw,
      failedPollEn, failedPoll, afterOk_rsLow, addressed, midPulse_eq, beforeLowRead_eq, afterLowRead_eq, beforeHighRead_eq,
      pulseHistory]

theorem pollProc_of_first_err {k : Nat} {x : ErrInfos} {s : State} (hk : k < 8) (hok : okFor k s)
    (hx : s.answerAt k = .err x) : pollProc s = .failed (pollFailed k x s) :=
  (pollProc_of_err hk hok hx).trans (congrArg Acted.failed (afterErr_pollState hk x s))

/-- A failed poll ends every operation. -/
theorem opProc_of_poll_failed (op : Op) {s t : State} (h : pollProc s = .failed t) : opProc op s = t := by
  cases op <;> simp only [opProc, stateProc, writeProc, h]

/-- What the controller has seen of a failed poll (R122). -/
theorem failedPoll_counts {k : Nat} (hk : k < 8) (l : Nibble) :
    pulses (failedPoll l k) = failedPollPulses k ∧ busWrites (failedPoll l k) = 0 := by
  interval_cases k <;> exact ⟨rfl, rfl⟩

/-- Settles O25: the state of the failed poll (`pollProc_of_first_err`) is what the rows of the table leave
(`stepTablesMeetPseudocode`). -/
theorem pollFailureTable : Obligations.PollFailureTable := by
  intro op k hk s cmd x hok hx
  have hfailed := opProc_of_poll_failed op (pollProc_of_first_err (s := startOp op cmd s) hk hok hx)
  obtain ⟨hpulses, hwrites⟩ := failedPoll_counts hk (nibbleAt s 4)
  exact ⟨_, (stepTablesMeetPseudocode s op cmd).trans (congrArg _ hfailed), rfl, rfl, rfl, rfl, rfl, rfl, rfl, hpulses,
    hwrites, rfl, rfl, rfl, rfl, rfl, rfl⟩

/-- Settles O21: the command is accepted, and the poll answered ok (`pollProc_of_okFor`) is what the rows of the table do
(`stepTablesMeetPseudocode`). -/
theorem statePollCompletes : Obligations.StatePollCompletes := by
  intro s db hready hok
  obtain ⟨hidle, -⟩ := (ready_iff s).mp hready
  have hpoll := pollProc_of_okFor (s := startOp .state (stateWord db) s) hok
  refine ⟨_, congrArg Host.Outcome.next (accept_of_ready hready), (stepTablesMeetPseudocode s .state _).trans ?_⟩
  rw [opProc, stateProc, hpoll, hidle]
  rfl

/-! ### The history of an operation by its result -/

/-- Actions that, all answered ok, record `es`, and else end in Failed. -/
def Records (es : List Event) (f : State → Acted) : Prop :=
  ∀ s, (∃ t, f s = .done t ∧ gained s t es) ∨ ∃ t x, f s = .failed t ∧ t.res = some (.failed x)

namespace Records

variable {es es' : List Event} {f g : State → Acted}

theorem andThen (hf : Records es f) (hg : Records es' g) : Records (es ++ es') fun s => (f s).andThen g := by
  intro s
  obtain ⟨t, ht, hes⟩ | ⟨t, x, ht, hx⟩ := hf s
  · obtain ⟨u, hu, hes'⟩ | ⟨u, x, hu, hx⟩ := hg t
    · exact .inl ⟨u, by simp [ht, hu], gained_append hes hes'⟩
    · exact .inr ⟨u, x, by simp [ht, hu], hx⟩
  · exact .inr ⟨t, x, by simp [ht], hx⟩

theorem delay (hf : Records es f) (n : Nibble) : Records (es ++ [.delayUs n]) fun s => (f s).map (delayUs n) := by
  intro s
  obtain ⟨t, ht, hes⟩ | ⟨t, x, ht, hx⟩ := hf s
  · exact .inl ⟨delayUs n t, by simp [ht], gained_append hes rfl⟩
  · exact .inr ⟨t, x, by simp [ht], hx⟩

theorem act {e : Event} {l : Line} {write : State → State} (hw : ∀ t, (write t).trace = t.trace) :
    Records [e] (act e l write) := by
  intro s
  cases h : s.answer with
  | ok v => exact .inl ⟨_, act_of_ok h, hw _⟩
  | err x => exact .inr ⟨_, _, act_of_err h, rfl⟩

theorem pulse : Records pulseHistory pulse := by
  have hhigh : Records [.eHigh] actEHigh := act fun _ => rfl
  have hlow : Records [.eLow] actELow := act fun _ => rfl
  exact ((hhigh.delay Config.tEhMin).andThen hlow).delay Config.tElMin

end Records

theorem actRs_records (kind : Kind) : Records [rsEvent kind] (actRs kind) := by
  have hlow : Records [.rsLow] actRsLow := .act fun _ => rfl
  have hhigh : Records [.rsHigh] actRsHigh := .act fun _ => rfl
  cases kind with
  | instr => exact hlow
  | data => exact hhigh

theorem dataActions_records (kind : Kind) (b : Byte) : Records (dataHistory kind b) (dataActions kind b) := by
  have hrw : Records [.rwLow] actRwLow := .act fun _ => rfl
  have hwrite (v : Nibble) : Records [.busWrite v] (actBusWrite v) := .act fun _ => rfl
  exact ((((((actRs_records kind).andThen hrw).andThen (hwrite _)).andThen .pulse).andThen (hwrite _)).andThen .pulse)

/-- How an operation begun in `s` may have ended in `t`: with its poll, after its data phase, or in a failure. -/
inductive Ended (s t : State) : Prop where
  | polled (l h : Nibble) (hg : gained s t (pollHistory l h)) (hres : t.res ≠ some .success)
  | written (kind : Kind) (b : Byte) (l h : Nibble) (hg : gained s t (pollHistory l h ++ dataHistory kind b))
      (hres : t.res = some .success)
  | failed (x : Failure) (hres : t.res = some (.failed x))

theorem polled_gained (s : State) : gained s (polled s) (pollHistory (nibbleAt s 4) (nibbleAt s 7)) := rfl

/-- A write whose poll was answered ok. -/
theorem ended_writeProc {s : State} (kind : Kind) (b : Byte) (h : pollProc s = .done (polled s)) :
    Ended s (writeProc kind b s) := by
  simp only [writeProc, h, dataProc_eq]
  split
  · exact .polled _ _ (polled_gained s) nofun
  · obtain ⟨u, hu, hes⟩ | ⟨u, x, hu, hx⟩ := dataActions_records kind b { polled s with loQ := lo4 b, hiQ := hi4 b }
    · rw [hu]
      exact .written kind b _ _ (gained_append (polled_gained s) hes) rfl
    · rw [hu]
      exact .failed x hx

theorem ended_opProc (op : Op) (s : State) : Ended s (opProc op s) := by
  obtain hok | ⟨k, x, hk, hok, hx⟩ := okFor_or_first_err 8 s
  · have hpoll := pollProc_of_okFor hok
    cases op with
    | state =>
      rw [opProc, stateProc, hpoll]
      exact .polled _ _ (polled_gained s) nofun
    | write kind b => exact ended_writeProc kind b hpoll
  · rw [opProc_of_poll_failed op (pollProc_of_first_err hk hok hx)]
    exact .failed _ rfl

/-- The counts of a poll's history (R126). -/
theorem pollHistory_counts (l h : Nibble) :
    actions (pollHistory l h) = 12 ∧ pulses (pollHistory l h) = 2 ∧ busReads (pollHistory l h) = 2 ∧
      busWrites (pollHistory l h) = 0 ∧ delays (pollHistory l h) = 4 ∧ minMicros (pollHistory l h) = 4 := by
  have hpulses : pulses (pollHistory l h) = 2 := by simp [pollHistory, pulseHistory, pulses]
  have htime : minMicros (pollHistory l h) = 4 := by simp [pollHistory, pulseHistory, minMicros, delayOf]
  exact ⟨rfl, hpulses, rfl, rfl, rfl, htime⟩

/-- The counts of a data phase's history. -/
theorem dataHistory_counts (kind : Kind) (b : Byte) :
    actions (dataHistory kind b) = 12 ∧ pulses (dataHistory kind b) = 2 ∧ busReads (dataHistory kind b) = 0 ∧
      busWrites (dataHistory kind b) = 2 ∧ delays (dataHistory kind b) = 4 ∧ minMicros (dataHistory kind b) = 4 := by
  have hpulses : pulses (dataHistory kind b) = 2 := by simp [dataHistory, pulseHistory, pulses]
  have htime : minMicros (dataHistory kind b) = 4 := by
    cases kind <;> simp [dataHistory, rsEvent, pulseHistory, minMicros, delayOf]
  cases kind <;> exact ⟨rfl, hpulses, rfl, rfl, rfl, htime⟩

/-- A poll's pulses are complete, so none runs on into what follows. -/
theorem pulses_pollHistory_append (l h : Nibble) (es : List Event) :
    pulses (pollHistory l h ++ es) = 2 + pulses es := by
  simp only [pollHistory, pulseHistory, List.cons_append, List.nil_append, pulses, and_self, if_true]
  omega

/-- The counts of a whole write's history (R140): those of its two phases. -/
theorem writeHistory_counts (kind : Kind) (b : Byte) (l h : Nibble) {es : List Event}
    (hes : es = pollHistory l h ++ dataHistory kind b) :
    actions es = 24 ∧ pulses es = 4 ∧ busReads es = 2 ∧ busWrites es = 2 ∧ delays es = 8 ∧ minMicros es = 8 := by
  obtain ⟨pa, -, pr, pw, pd, pm⟩ := pollHistory_counts l h
  obtain ⟨da, dp, dr, dw, dd, dm⟩ := dataHistory_counts kind b
  simp only [hes, actions_append, busReads_append, busWrites_append, delays_append, minMicros_append,
    pulses_pollHistory_append, pa, pr, pw, pd, pm, da, dp, dr, dw, dd, dm, Nat.reduceAdd, and_self]

/-- Settles O50: the result names the way the operation has ended (`ended_opProc`), and that way its history. -/
theorem operationCounts : Obligations.OperationCounts := by
  intro s t op cmd es hrun hg
  cases (stepTablesMeetPseudocode s op cmd).symm.trans hrun
  cases ended_opProc op (startOp op cmd s) with
  | polled l h hg' hres =>
    cases gained_unique hg hg'
    exact ⟨fun _ => pollHistory_counts l h, fun hs => absurd hs hres⟩
  | written kind b l h hg' hres =>
    refine ⟨?_, fun _ => writeHistory_counts kind b l h (gained_unique hg hg')⟩
    simp [hres]
  | failed x hres => simp [hres]

end Sys2Proof.Machine

/-! PROOFS. What a write leaves, by what its poll reads and what the eight fallible actions of its data phase are answered
(42_write.md R131 to R138). -/

namespace Sys2Proof.Machine

/-! ### Actions by what they are answered -/

/-- What a failure at place `k` of actions in sequence leaves: the first part, with `n` fallible actions, leaves `fail` or,
all answered ok, goes on from `g`; the second part leaves `fail'`. -/
def failedInSequence (n : Nat) (g : State → State) (fail fail' : Nat → ErrInfos → State → State) (k : Nat)
    (x : ErrInfos) (s : State) : State :=
  if k < n then fail k x s else fail' (k - n) x (g s)

/-- Actions, `n` of them fallible, leave `g` when all are answered ok and `fail k x` when the `k`-th is the first answered
err. -/
structure Leaves (n : Nat) (f : State → Acted) (g : State → State) (fail : Nat → ErrInfos → State → State) : Prop where
  answers : ∀ s k, (g s).answerAt k = s.answerAt (n + k)
  ok : ∀ s, okFor n s → f s = .done (g s)
  err : ∀ s k x, k < n → okFor k s → s.answerAt k = .err x → f s = .failed (fail k x s)

/-- Answers to come, after the first `n` of them are drawn. -/
theorem okFor_of_answers {m n : Nat} {s t : State} (ht : ∀ k, t.answerAt k = s.answerAt (n + k)) (h : okFor (n + m) s) :
    okFor m t := by
  intro k hk
  rw [ht]
  exact h (n + k) (Nat.add_lt_add_left hk n)

/-- What a pulse leaves that fails at E_HIGH or at E_LOW (R110). -/
def pulseFailed (k : Nat) (x : ErrInfos) (s : State) : State :=
  match k with
  | 0 => afterErr .eHigh .en x s
  | _ => afterErr .eLow .en x (midPulse 0 s)

namespace Leaves

variable {m n : Nat} {f f' : State → Acted} {g g' : State → State} {fail fail' : Nat → ErrInfos → State → State}

theorem andThen (hf : Leaves n f g fail) (hf' : Leaves m f' g' fail') :
    Leaves (n + m) (fun s => (f s).andThen f') (fun s => g' (g s)) (failedInSequence n g fail fail') where
  answers s k := by rw [hf'.answers, hf.answers, Nat.add_assoc]
  ok s h := by
    rw [hf.ok s (okFor_mono h (Nat.le_add_right n m)), Acted.andThen_done]
    exact hf'.ok _ (okFor_of_answers (hf.answers s) h)
  err s k x hk h hx := by
    by_cases hlt : k < n
    · rw [hf.err s k x hlt h hx, Acted.andThen_failed, failedInSequence, if_pos hlt]
    · obtain ⟨j, rfl⟩ := Nat.exists_eq_add_of_le (Nat.le_of_not_lt hlt)
      rw [hf.ok s (okFor_mono h (Nat.le_add_right n j)), Acted.andThen_done, failedInSequence, if_neg hlt,
        Nat.add_sub_cancel_left]
      exact hf'.err _ j x (Nat.lt_of_add_lt_add_left hk) (okFor_of_answers (hf.answers s) h) ((hf.answers s j).trans hx)

theorem congr (hf : Leaves n f g fail) (hg : ∀ s, g' s = g s) (hfail : ∀ k x s, k < n → fail' k x s = fail k x s) :
    Leaves n f g' fail' where
  answers s k := by rw [hg, hf.answers]
  ok s h := by rw [hg, hf.ok s h]
  err s k x hk h hx := by rw [hfail k x s hk, hf.err s k x hk h hx]

/-- A fallible primitive that reads nothing. -/
theorem attempt {i : Instr} {l : Line} (hi : ∀ v s, afterOk i v s = afterOk i 0 s) :
    Leaves 1 (attempt i l) (afterOk i 0) fun _ => afterErr i l where
  answers s k := by rw [answerAt_afterOk, Nat.add_comm]
  ok s h := by rw [attempt_of_ok (answerAt_of_okFor h Nat.one_pos), hi]
  err s k x hk _ hx := by
    cases Nat.lt_one_iff.mp hk
    exact attempt_of_err hx

theorem pulse : Leaves 2 pulse pulsed pulseFailed where
  answers := answerAt_pulsed
  ok _ h := pulse_of_ok_ok (answerAt_of_okFor h Nat.two_pos) (answerAt_of_okFor h Nat.one_lt_two)
  err _ k _ hk h hx :=
    match k, hk with
    | 0, _ => pulse_of_err hx
    | 1, _ => pulse_of_ok_err (answerAt_of_okFor h Nat.one_pos) hx

end Leaves

/-! ### The data phase -/

/-- The state a data phase leaves whose actions are all answered ok. -/
def dataSent (kind : Kind) (b : Byte) (s : State) : State :=
  { s with
    rsQ := rsLevelOf kind, rwQ := .L, enQ := .L, dbQ := some (hi4 b), tmr := 0
    trace := s.trace ++ dataHistory kind b
    env := s.env.drop 8
    draws := s.draws + 8 }

/-- The state a data phase leaves whose `k`-th fallible action fails with the values `x`. -/
def dataFailed (kind : Kind) (b : Byte) (k : Nat) (x : ErrInfos) (s : State) : State :=
  { s with
    rsQ := failedDataRs kind k
    rwQ := if k = 0 then s.rwQ else failedDataRw k
    enQ := if k < 3 then s.enQ else failedDataEn k
    dbQ := failedDataDb b s.dbQ k
    seq := .idle
    res := some (.failed (failureOn (dataLine k) x))
    tmr := if k < 4 then s.tmr else 0
    trace := s.trace ++ (failedData kind b k ++ [.fail (dataLine k)])
    env := s.env.drop (k + 1)
    draws := s.draws + (k + 1) }

theorem afterOk_rsAction (kind : Kind) (v : Nibble) (s : State) : afterOk (rsAction kind) v s =
    { s with rsQ := rsLevelOf kind, trace := s.trace ++ [rsEvent kind], env := s.env.tail, draws := s.draws + 1 } := by
  cases kind <;> rfl

theorem afterOk_rwLow (v : Nibble) (s : State) : afterOk .rwLow v s =
    { s with rwQ := .L, trace := s.trace ++ [.rwLow], env := s.env.tail, draws := s.draws + 1 } := rfl

theorem afterOk_busWrite (w v : Nibble) (s : State) : afterOk (.busWrite w) v s =
    { s with dbQ := some w, trace := s.trace ++ [.busWrite w], env := s.env.tail, draws := s.draws + 1 } := rfl

theorem afterErr_rsAction (kind : Kind) (x : ErrInfos) (s : State) : afterErr (rsAction kind) .rs x s =
    { s with
      rsQ := .U
      seq := .idle
      res := some (.failed (.rs x.rs))
      trace := s.trace ++ [rsEvent kind, .fail .rs]
      env := s.env.tail
      draws := s.draws + 1 } := by
  cases kind <;> rfl

theorem afterErr_rwLow (x : ErrInfos) (s : State) : afterErr .rwLow .rw x s =
    { s with
      rwQ := .U
      seq := .idle
      res := some (.failed (.rw x.rw))
      trace := s.trace ++ [.rwLow, .fail .rw]
      env := s.env.tail
      draws := s.draws + 1 } := rfl

theorem afterErr_busWrite (w : Nibble) (x : ErrInfos) (s : State) : afterErr (.busWrite w) .bus x s =
    { s with
      dbQ := none
      seq := .idle
      res := some (.failed (.bus x.bus))
      trace := s.trace ++ [.busWrite w, .fail .bus]
      env := s.env.tail
      draws := s.draws + 1 } := rfl

theorem afterErr_eHigh (x : ErrInfos) (s : State) : afterErr .eHigh .en x s =
    { s with
      enQ := .U
      seq := .idle
      res := some (.failed (.en x.en))
      trace := s.trace ++ [.eHigh, .fail .en]
      env := s.env.tail
      draws := s.draws + 1 } := rfl

/-- Six parts, each by its own rule: RS, RW low, the low nibble, a pulse, the high nibble, a pulse (R133). -/
theorem dataActions_leaves (kind : Kind) (b : Byte) :
    Leaves 8 (dataActions kind b) (dataSent kind b) (dataFailed kind b) := by
  have hrs : Leaves 1 (actRs kind) _ _ := funext (actRs_eq kind) ▸ Leaves.attempt (l := .rs) fun v s => by
    rw [afterOk_rsAction, afterOk_rsAction]
  have hrw : Leaves 1 actRwLow _ _ := funext actRwLow_eq ▸ Leaves.attempt (l := .rw) fun _ _ => rfl
  have hwrite (w : Nibble) : Leaves 1 (actBusWrite w) _ _ :=
    funext (actBusWrite_eq w) ▸ Leaves.attempt (l := .bus) fun _ _ => rfl
  refine (((((hrs.andThen hrw).andThen (hwrite _)).andThen .pulse).andThen (hwrite _)).andThen .pulse).congr
    (fun s => ?_) fun k x s hk => ?_
  · simp [dataSent, dataHistory, pulsed, afterOk_rsAction, afterOk_rwLow, afterOk_busWrite]
  · interval_cases k <;>
      simp [failedInSequence, pulseFailed, dataFailed, failedDataRs, failedDataRw, failedDataEn, failedDataDb, failedData,
        dataLine, pulseHistory, pulsed, midPulse_eq, afterOk_rsAction, afterOk_rwLow, afterOk_busWrite, afterErr_rsAction,
        afterErr_rwLow, afterErr_busWrite, afterErr_eHigh, afterErr_eLow]

/-! ### A write by its poll -/

/-- The operand in the nibble latches, before the data phase. -/
def operandSplit (b : Byte) (s : State) : State := { s with loQ := lo4 b, hiQ := hi4 b }

section Write

variable {s : State} {kind : Kind} {b : Byte}

theorem busyFlag_eq_decide (v : Byte) : busyFlag v = decide (0x80 ≤ v.toNat) := BitVec.msb_eq_decide v

theorem writeProc_of_busy (hok : okFor 8 s) (hbusy : busyFlag (polledByte s) = true) :
    writeProc kind b s = endOp .retryLater (polled s) := by
  rw [writeProc, pollProc_of_okFor hok]
  exact if_pos hbusy

/-- Not busy, a write is its data phase and, if that did not fail, Success. -/
theorem writeProc_of_not_busy (hok : okFor 8 s) (hbusy : busyFlag (polledByte s) = false) :
    writeProc kind b s = ((dataActions kind b (operandSplit b (polled s))).map (endOp .success)).state := by
  have hclear : ¬ busyFlag (polled s).sr = true := Bool.eq_false_iff.mp hbusy
  have hdata : dataProc kind b (polled s) = dataActions kind b (operandSplit b (polled s)) := rfl
  simp only [writeProc, pollProc_of_okFor hok, if_neg hclear, hdata]
  cases dataActions kind b (operandSplit b (polled s)) <;> rfl

/-- The data phase draws the answers after the poll's eight. -/
theorem answerAt_operandSplit_polled (b : Byte) (s : State) (k : Nat) :
    (operandSplit b (polled s)).answerAt k = s.answerAt (8 + k) :=
  answerAt_drawnBy 8 s k

theorem writeProc_of_okFor (hok : okFor 16 s) (hbusy : busyFlag (polledByte s) = false) :
    writeProc kind b s = endOp .success (dataSent kind b (operandSplit b (polled s))) := by
  have hdata : okFor 8 (operandSplit b (polled s)) := okFor_of_answers (answerAt_operandSplit_polled b s) hok
  rw [writeProc_of_not_busy (okFor_mono hok (by decide)) hbusy, (dataActions_leaves kind b).ok _ hdata]
  rfl

theorem writeProc_of_data_err {k : Nat} {x : ErrInfos} (hk : k < 8) (hok : okFor (8 + k) s)
    (hbusy : busyFlag (polledByte s) = false) (hx : s.answerAt (8 + k) = .err x) :
    writeProc kind b s = dataFailed kind b k x (operandSplit b (polled s)) := by
  have hdata : okFor k (operandSplit b (polled s)) := okFor_of_answers (answerAt_operandSplit_polled b s) hok
  rw [writeProc_of_not_busy (okFor_mono hok (Nat.le_add_right 8 k)) hbusy,
    (dataActions_leaves kind b).err _ k x hk hdata ((answerAt_operandSplit_polled b s k).trans hx)]
  rfl

/-- Every way to ask for a write starts it, when the machine is ready (R134, R135, 43_timed_facade.md R149). -/
theorem exec_write_of_ready (hready : s.ready = true) (kind : Kind) (b : Byte) :
    exec (.facadeWrite kind b) s = .next (startOp (.write kind b) (writeWord kind b) s) ∧
      (kind = .instr → exec (.writeInstr b) s = .next (startOp (.write kind b) (writeWord kind b) s)) ∧
      (kind = .data → exec (.writeData b) s = .next (startOp (.write kind b) (writeWord kind b) s)) := by
  refine ⟨congrArg Host.Outcome.next (accept_of_ready hready), ?_, ?_⟩ <;> rintro rfl <;>
    exact congrArg Host.Outcome.next (accept_of_ready hready)

end Write

/-- Settles O22: a write that is busy ends with its poll (`writeProc_of_busy`), as the rows of the table do
(`stepTablesMeetPseudocode`). -/
theorem busyWriteRetriesLater : Obligations.BusyWriteRetriesLater := by
  intro s kind b hready hok hbusy
  obtain ⟨hidle, -⟩ := (ready_iff s).mp hready
  obtain ⟨hfacade, hinstr, hdata⟩ := exec_write_of_ready hready kind b
  have hwrite := writeProc_of_busy (s := startOp (.write kind b) (writeWord kind b) s) (kind := kind) (b := b) hok
    ((busyFlag_eq_decide _).trans (decide_eq_true hbusy))
  refine ⟨_, hfacade, hinstr, hdata, (stepTablesMeetPseudocode s (.write kind b) _).trans ?_⟩
  rw [opProc, hwrite, hidle]
  rfl

/-- Settles O23: a write that is not busy ends with its data phase sent (`writeProc_of_okFor`), as the rows of the table do
(`stepTablesMeetPseudocode`). -/
theorem writeTransfersByte : Obligations.WriteTransfersByte := by
  intro s kind b hready hok hbusy
  obtain ⟨hidle, -⟩ := (ready_iff s).mp hready
  obtain ⟨hfacade, hinstr, hdata⟩ := exec_write_of_ready hready kind b
  have hwrite := writeProc_of_okFor (s := startOp (.write kind b) (writeWord kind b) s) (kind := kind) (b := b) hok
    ((busyFlag_eq_decide _).trans (decide_eq_false hbusy.not_ge))
  have henv : (s.env.drop 8).drop 8 = s.env.drop 16 := List.drop_drop
  refine ⟨_, hfacade, hinstr, hdata, (stepTablesMeetPseudocode s (.write kind b) _).trans ?_⟩
  rw [opProc, hwrite, hidle, ← henv]
  rfl

/-- What the controller has seen of a failed data phase (R136). -/
theorem failedData_counts {k : Nat} (hk : k < 8) (kind : Kind) (b : Byte) :
    writesDone (failedData kind b k ++ [.fail (dataLine k)]) = failedDataWrites k ∧
      pulses (failedData kind b k ++ [.fail (dataLine k)]) = failedDataPulses k := by
  interval_cases k <;> cases kind <;> exact ⟨rfl, rfl⟩

/-- The latches of a data phase that failed after a poll: RW was high and E low before it (R136). -/
theorem dataFailed_latches {s : State} (hrw : s.rwQ = .H) (hen : s.enQ = .L) {k : Nat} (hk : k < 8) (kind : Kind) (b : Byte)
    (x : ErrInfos) :
    (dataFailed kind b k x s).rwQ = failedDataRw k ∧ (dataFailed kind b k x s).enQ = failedDataEn k := by
  rw [dataFailed, hrw, hen]
  interval_cases k <;> exact ⟨rfl, rfl⟩

theorem dataFailsAt (kind : Kind) (b : Byte) {k : Nat} (hk : k < 8) : DataFailsAt kind b k := by
  intro s cmd x hok hbusy hx
  have hwrite := writeProc_of_data_err (s := startOp (.write kind b) cmd s) (kind := kind) (b := b) hk hok hbusy hx
  obtain ⟨hrw, hen⟩ := dataFailed_latches (s := operandSplit b (polled (startOp (.write kind b) cmd s))) rfl rfl hk kind b x
  obtain ⟨hwrites, hpulses⟩ := failedData_counts hk kind b
  refine ⟨_, _, (stepTablesMeetPseudocode s (.write kind b) cmd).trans (congrArg _ hwrite), rfl, rfl, rfl,
    gained_append (polled_gained _) rfl, rfl, hrw, hen, rfl, hwrites, hpulses, rfl, rfl, rfl, List.drop_drop,
    Nat.add_assoc _ _ _⟩

/-- Settles O26: a failure of the poll is O25's (`pollFailureTable`), one of the data phase is `dataFailsAt`. -/
theorem writeFailureTable : Obligations.WriteFailureTable :=
  fun kind b k hk => ⟨pollFailureTable (.write kind b) k hk, dataFailsAt kind b hk⟩

end Sys2Proof.Machine

/-! PROOFS. The timed facade and the blocking stream: what starts a stream, its turn after each result, the runs of a busy and
of an accepted byte (43_timed_facade.md R145 to R153). -/

namespace Sys2Proof.Machine

/-! ### A stream's start and its turns -/

section Stream

variable {s : State} {st : ByteStream} {b : Byte}

theorem issue_of_some (s : State) (h : st.bytes[st.k]? = some b) :
    issue st s = startOp (.write .data b) (writeWord .data b) { s with stream := some st } := by
  simp only [issue, h]

theorem issue_of_none (s : State) (h : st.bytes[st.k]? = none) : issue st s = endStream .success st.k s := by
  simp only [issue, h]

/-- The stream that already runs issues its byte again. -/
theorem issue_again (hst : s.stream = some st) (h : st.bytes[st.k]? = some b) :
    issue st s = startOp (.write .data b) (writeWord .data b) s := by
  rw [issue_of_some s h, ← hst]

theorem openStream_of_ready (bs : List Byte) (h : s.ready = true) : openStream bs s = issue ⟨bs, 0⟩ s := if_pos h

theorem openStream_of_not_ready (bs : List Byte) (h : s.ready = false) : openStream bs s = s :=
  if_neg (Bool.eq_false_iff.mp h)

theorem streamTurn_of_retryLater (st : ByteStream) (h : s.res = some .retryLater) : streamTurn st s = issue st s := by
  simp only [streamTurn, h]

theorem streamTurn_of_success (st : ByteStream) (h : s.res = some .success) :
    streamTurn st s = issue ⟨st.bytes, st.k + 1⟩ s := by
  simp only [streamTurn, h]

theorem streamTurn_of_failed {f : Failure} (st : ByteStream) (h : s.res = some (.failed f)) :
    streamTurn st s = endStream (.failed f) st.k s := by
  simp only [streamTurn, h]

theorem step_of_stream (hs : s.seq = .idle) (hst : s.stream = some st) : step s = .next (streamTurn st s) := by
  rw [step_of_idle hs]
  simp only [idleStep, hst]

theorem exec_writeBytes_of_ready (bs : List Byte) (h : s.ready = true) :
    exec (.writeBytes bs) s = .next (issue ⟨bs, 0⟩ s) := congrArg Host.Outcome.next (openStream_of_ready bs h)

/-- A blocking byte is a sequence of one (R150, R151). -/
theorem exec_writeByteBlocking_eq (b : Byte) (s : State) : exec (.writeByteBlocking b) s = exec (.writeBytes [b]) s := rfl

/-- A character that is one byte is a blocking byte (R152). -/
theorem exec_writeChar_of_lt {c : Nat} (s : State) (h : c < 256) :
    exec (.writeChar c) s = exec (.writeByteBlocking (BitVec.ofNat 8 c)) s := if_pos h

end Stream

/-- Settles O27: each pair is one meaning, which a ready machine accepts (`exec_write_of_ready`). -/
theorem facadePassesThrough : Obligations.FacadePassesThrough := by
  intro s b
  refine ⟨rfl, rfl, rfl, fun hready => ⟨congrArg Host.Outcome.next (accept_of_ready hready), fun kind => ?_⟩⟩
  obtain ⟨hfacade, -⟩ := exec_write_of_ready hready kind b
  exact hfacade

/-- Settles O28: the three operations are one start of a stream (`exec_writeByteBlocking_eq`, `exec_writeChar_of_lt`). -/
theorem streamOpens : Obligations.StreamOpens := by
  refine ⟨fun s hready => ?_, fun s c hc => if_neg hc.not_gt, fun s bs b c hready hc => ?_⟩
  · have hcons (b : Byte) (bs : List Byte) : exec (.writeBytes (b :: bs)) s =
        .next (startOp (.write .data b) (writeWord .data b) { s with stream := some ⟨b :: bs, 0⟩ }) :=
      (exec_writeBytes_of_ready _ hready).trans (congrArg _ (issue_of_some s rfl))
    refine ⟨hcons, ?_, fun b => hcons b [], fun c hc => (exec_writeChar_of_lt s hc).trans (hcons _ [])⟩
    obtain ⟨-, hstream⟩ := (ready_iff s).mp hready
    rw [exec_writeBytes_of_ready _ hready, issue_of_none s rfl, endStream, ← hstream]
  · have hstays (bs : List Byte) : exec (.writeBytes bs) s = .next s :=
      congrArg Host.Outcome.next (openStream_of_not_ready bs hready)
    exact ⟨hstays bs, hstays [b], (exec_writeChar_of_lt s hc).trans (hstays _)⟩

/-- Settles O29: the turn of each result, and the byte it issues or the end. -/
theorem streamTurns : Obligations.StreamTurns := by
  intro s st hs hst hk
  rw [step_of_stream hs hst]
  refine ⟨fun hres => ⟨_, List.getElem?_eq_getElem hk, ?_⟩, fun hres hnext => ⟨_, List.getElem?_eq_getElem hnext, ?_⟩,
    fun hres hend => ?_, fun f hres => ?_⟩
  · rw [streamTurn_of_retryLater st hres, issue_again hst (List.getElem?_eq_getElem hk), startOp]
  · rw [streamTurn_of_success st hres, issue_of_some s (List.getElem?_eq_getElem hnext), startOp]
  · rw [streamTurn_of_success st hres, issue_of_none s (List.getElem?_eq_none hend.ge), hend, endStream]
  · rw [streamTurn_of_failed st hres, endStream]

/-- Settles O34: with no stream a step in Idle serves the host's move (`step_of_move`). -/
theorem ownershipMoves : Obligations.OwnershipMoves := by
  intro s rest hs hst
  exact ⟨fun h => ⟨_, step_of_move hs hst h, rfl, rfl, rfl, rfl, rfl, rfl, rfl, rfl, rfl, rfl, rfl⟩,
    step_of_move hs hst, step_of_move hs hst, step_of_move hs hst⟩

/-! ### The steps of one operation -/

theorem run_then_step {n : Nat} {s t u : State} (h : Sys2Proof.core.run n s = .next t) (hstep : step t = .next u) :
    Sys2Proof.core.run (n + 1) s = .next u := (run_add n 1 s t h).trans (run_next 0 hstep)

/-- From `s` an operation takes `n` more steps, the last of which ends it in `t`. -/
inductive EndsAfter : Nat → State → State → Prop where
  | last {op : Op} {upc : BitVec 5} {s t : State} (hs : s.seq = .run op upc) (h : step s = .next t) (ht : t.seq = .idle) :
      EndsAfter 1 s t
  | more {op : Op} {upc : BitVec 5} {n : Nat} {s u t : State} (hs : s.seq = .run op upc) (h : step s = .next u)
      (hu : u.seq = .run op (upc + 1)) (rest : EndsAfter n u t) : EndsAfter (n + 1) s t

theorem endsAfter_of_runToIdle {op : Op} {upc : BitVec 5} {s t : State} (fuel : Nat) (hs : s.seq = .run op upc)
    (h : runToIdle fuel s = .next t) (ht : t.seq = .idle) : ∃ n, EndsAfter n s t := by
  induction fuel generalizing s upc with
  | zero =>
    cases h
    cases hs.symm.trans ht
  | succ fuel ih =>
    cases hstep : step s with
    | next u =>
      rw [runToIdle_of_step fuel hs hstep] at h
      obtain ⟨-, hr⟩ := rowStep_of_step hs hstep
      obtain ⟨hidle, -⟩ | ⟨hrun, -⟩ := hr.ends_or_goes_on
      · rw [runToIdle_of_idle fuel hidle] at h
        cases h
        exact ⟨1, .last hs hstep ht⟩
      · obtain ⟨n, hn⟩ := ih hrun h
        exact ⟨n + 1, .more hs hstep hrun hn⟩
    | fault | refused =>
      simp only [runToIdle, hs, hstep] at h
      cases h

namespace EndsAfter

variable {op : Op} {upc : BitVec 5} {n k : Nat} {s t : State}

theorem run (h : EndsAfter n s t) : Sys2Proof.core.run n s = .next t := by
  induction h with
  | last _ h _ => exact run_next 0 h
  | more _ h _ _ ih => exact (run_next _ h).trans ih

/-- On the way to its end an operation leaves the stream and the count. -/
theorem stream_on_the_way (h : EndsAfter n s t) (hk : k ≤ n) :
    ∃ v, Sys2Proof.core.run k s = .next v ∧ v.stream = s.stream ∧ v.accepted = s.accepted := by
  induction h generalizing k with
  | last hs h _ =>
    cases k with
    | zero => exact ⟨_, rfl, rfl, rfl⟩
    | succ k =>
      obtain rfl : k = 0 := by omega
      obtain ⟨-, -, hstream, hacc⟩ := (rowStep_of_step hs h).2.host_frame
      exact ⟨_, run_next 0 h, hstream, hacc⟩
  | more hs h _ _ ih =>
    cases k with
    | zero => exact ⟨_, rfl, rfl, rfl⟩
    | succ k =>
      obtain ⟨-, -, hstream, hacc⟩ := (rowStep_of_step hs h).2.host_frame
      obtain ⟨v, hv, hvs, hva⟩ := ih (Nat.le_of_succ_le_succ hk)
      exact ⟨v, (run_next k h).trans hv, hvs.trans hstream, hva.trans hacc⟩

/-- Only step 12 gives RetryLater (R132), so a write that ends so takes thirteen steps. -/
theorem steps_of_retryLater (h : EndsAfter n s t) (hs : s.seq = .run op upc) (hres : t.res = some .retryLater) :
    upc.toNat + n = 13 := by
  induction h generalizing upc with
  | last hs' h ht =>
    cases hs'.symm.trans hs
    obtain ⟨-, hr⟩ := rowStep_of_step hs h
    cases hr with
    | assembled hn => omega
    | acted | delayed => cases ht
    | failed | finished => cases hres
  | more hs' h hu _ ih =>
    cases hs'.symm.trans hs
    obtain ⟨hle, -⟩ := rowStep_of_step hs h
    have := ih hu hres
    rw [upc_toNat_succ hle] at this
    omega

end EndsAfter

/-- A write at its first step ends as its pseudocode says. -/
theorem endsAfter_writeProc {kind : Kind} {b : Byte} {s : State} (hs : s.seq = .run (.write kind b) 0)
    (hidle : (writeProc kind b s).seq = .idle) : ∃ n, EndsAfter n s (writeProc kind b s) := by
  have hself : startOp (.write kind b) s.cmdQ s = s := by rw [startOp, ← hs]
  have hrun := stepTablesMeetPseudocode s (.write kind b) s.cmdQ
  rw [hself] at hrun
  exact endsAfter_of_runToIdle _ hs hrun hidle

theorem endsAfter_of_busy {kind : Kind} {b : Byte} {s : State} (hs : s.seq = .run (.write kind b) 0) (hok : okFor 8 s)
    (hbusy : busyFlag (polledByte s) = true) : EndsAfter 13 s (endOp .retryLater (polled s)) := by
  have hwrite := writeProc_of_busy (kind := kind) (b := b) hok hbusy
  obtain ⟨n, hn⟩ := endsAfter_writeProc hs (hwrite ▸ rfl)
  rw [hwrite] at hn
  obtain rfl : n = 13 := (Nat.zero_add n).symm.trans (hn.steps_of_retryLater hs rfl)
  exact hn

/-! ### The answers and the history along a run -/

namespace Progress

variable {es es' : List Event} {m n : Nat} {s t u : State}

theorem trans (h : Progress es m s t) (h' : Progress es' n t u) : Progress (es ++ es') (m + n) s u where
  trace := gained_append h.trace h'.trace
  env := by rw [h'.env, h.env, List.drop_drop]
  envRest := h'.envRest.trans h.envRest
  draws := by rw [h'.draws, h.draws, Nat.add_assoc]

theorem answerAt_eq (h : Progress es n s t) (k : Nat) : t.answerAt k = s.answerAt (n + k) := by
  simp only [State.answerAt, h.env, h.envRest, h.draws, answerOf_drop]

theorem nibbleAt_eq (h : Progress es n s t) (k : Nat) : nibbleAt t k = nibbleAt s (n + k) := by
  simp only [nibbleAt, h.answerAt_eq]

theorem okFor (h : Progress es n s t) (hok : okFor (n + m) s) : okFor m t := okFor_of_answers h.answerAt_eq hok

theorem polledByte_eq (h : Progress es n s t) : polledByte t = join (nibbleAt s (n + 4)) (nibbleAt s (n + 7)) := by
  rw [polledByte, h.nibbleAt_eq, h.nibbleAt_eq]

end Progress

/-! ### The runs of a byte of a stream -/

/-- The stream `st` has issued the write of its byte `b`, which is at its first step. -/
structure Issued (st : ByteStream) (b : Byte) (s : State) : Prop where
  seq : s.seq = .run (.write .data b) 0
  stream : s.stream = some st
  byte : st.bytes[st.k]? = some b

theorem issued_issue {st : ByteStream} {b : Byte} (s : State) (h : st.bytes[st.k]? = some b) : Issued st b (issue st s) := by
  rw [issue_of_some s h]
  exact ⟨rfl, rfl, h⟩

/-- The byte issued again after a busy poll. -/
def retried (b : Byte) (s : State) : State :=
  startOp (.write .data b) (writeWord .data b) (endOp .retryLater (polled s))

theorem retried_progress (b : Byte) (s : State) :
    Progress (pollHistory (nibbleAt s 4) (nibbleAt s 7)) 8 s (retried b s) := ⟨rfl, rfl, rfl, rfl⟩

/-- The byte accepted: its poll, its data phase, Success. -/
def byteSent (b : Byte) (s : State) : State := endOp .success (dataSent .data b (operandSplit b (polled s)))

theorem byteSent_progress (b : Byte) (s : State) :
    Progress (pollHistory (nibbleAt s 4) (nibbleAt s 7) ++ dataHistory .data b) 16 s (byteSent b s) :=
  ⟨gained_append (polled_gained s) rfl, List.drop_drop, rfl, rfl⟩

/-- The history of `m` busy polls. -/
def busyHistory (m : Nat) (s : State) : List Event :=
  (List.range m).flatMap fun j => pollHistory (nibbleAt s (8 * j + 4)) (nibbleAt s (8 * j + 7))

theorem busyHistory_succ (m : Nat) (s : State) :
    busyHistory (m + 1) s = busyHistory m s ++ pollHistory (nibbleAt s (8 * m + 4)) (nibbleAt s (8 * m + 7)) := by
  simp [busyHistory, List.range_succ]

theorem writtenNibbles_pollHistory (l h : Nibble) : writtenNibbles (pollHistory l h) = [] := rfl

theorem writtenNibbles_dataHistory (kind : Kind) (b : Byte) : writtenNibbles (dataHistory kind b) = [lo4 b, hi4 b] := by
  cases kind <;> rfl

theorem busyHistory_counts (m : Nat) (s : State) :
    actions (busyHistory m s) = 12 * m ∧ busReads (busyHistory m s) = 2 * m ∧ writtenNibbles (busyHistory m s) = [] ∧
      minMicros (busyHistory m s) = 4 * m := by
  induction m with
  | zero => exact ⟨rfl, rfl, rfl, rfl⟩
  | succ m ih =>
    obtain ⟨ha, hr, hw, hm⟩ := ih
    obtain ⟨pa, -, pr, -, -, pm⟩ := pollHistory_counts (nibbleAt s (8 * m + 4)) (nibbleAt s (8 * m + 7))
    rw [busyHistory_succ, actions_append, busReads_append, writtenNibbles_append, minMicros_append, ha, hr, hw, hm, pa, pr, pm]
    exact ⟨rfl, rfl, rfl, rfl⟩

namespace Issued

variable {st : ByteStream} {b : Byte} {s : State} (h : Issued st b s)
include h

theorem again : Issued st b (retried b s) := ⟨rfl, h.stream, h.byte⟩

/-- Once its write has ended, the stream takes its turn. -/
theorem step_of_turn {t u : State} (hturn : streamTurn st t = u) (ht : t.seq = .idle) (hst : t.stream = s.stream) :
    step t = .next u := (step_of_stream ht (hst.trans h.stream)).trans (congrArg _ hturn)

/-- A busy poll and the stream's turn: fourteen steps. -/
theorem run_busy (hok : okFor 8 s) (hbusy : busyFlag (polledByte s) = true) :
    Sys2Proof.core.run 14 s = .next (retried b s) := by
  have hturn : streamTurn st (endOp .retryLater (polled s)) = retried b s :=
    (streamTurn_of_retryLater st rfl).trans (issue_again h.stream h.byte)
  exact run_then_step (endsAfter_of_busy h.seq hok hbusy).run (h.step_of_turn hturn rfl rfl)

/-- `m` busy polls: the byte is issued again, nothing handed back. -/
theorem run_busy_polls (m : Nat) (hok : okFor (8 * m) s)
    (hbusy : ∀ j, j < m → busyFlag (join (nibbleAt s (8 * j + 4)) (nibbleAt s (8 * j + 7))) = true) :
    ∃ v, Sys2Proof.core.run (14 * m) s = .next v ∧ Issued st b v ∧ v.accepted = s.accepted ∧
      Progress (busyHistory m s) (8 * m) s v := by
  induction m with
  | zero => exact ⟨s, rfl, h, rfl, .of_outside_eq rfl⟩
  | succ m ih =>
    obtain ⟨v, hrun, hv, hacc, hp⟩ := ih (okFor_mono hok (by omega)) fun j hj => hbusy j (by omega)
    have hvbusy : busyFlag (polledByte v) = true := hp.polledByte_eq ▸ hbusy m (by omega)
    have hvp := retried_progress b v
    rw [hp.nibbleAt_eq, hp.nibbleAt_eq] at hvp
    refine ⟨retried b v, ?_, hv.again, hacc, busyHistory_succ m s ▸ hp.trans hvp⟩
    rw [Nat.mul_add, run_add _ _ _ _ hrun]
    exact hv.run_busy (hp.okFor hok) hvbusy

/-- A poll that is not busy: the byte is sent, and the stream goes on from the next one. -/
theorem run_not_busy (hok : okFor 16 s) (hbusy : busyFlag (polledByte s) = false) :
    ∃ n, Sys2Proof.core.run n s = .next (issue ⟨st.bytes, st.k + 1⟩ (byteSent b s)) := by
  have hwrite : writeProc .data b s = byteSent b s := writeProc_of_okFor hok hbusy
  obtain ⟨n, hn⟩ := endsAfter_writeProc h.seq (hwrite ▸ rfl)
  rw [hwrite] at hn
  have hturn : streamTurn st (byteSent b s) = issue ⟨st.bytes, st.k + 1⟩ (byteSent b s) := streamTurn_of_success st rfl
  exact ⟨n + 1, run_then_step hn.run (h.step_of_turn hturn rfl rfl)⟩

/-- The last byte not busy: it is sent, and the stream ends. -/
theorem run_last (hlast : st.bytes.length = st.k + 1) (hok : okFor 16 s) (hbusy : busyFlag (polledByte s) = false) :
    ∃ n, Sys2Proof.core.run n s = .next (endStream .success (st.k + 1) (byteSent b s)) := by
  obtain ⟨n, hn⟩ := h.run_not_busy hok hbusy
  exact ⟨n, hn.trans (congrArg _ (issue_of_none _ (List.getElem?_eq_none hlast.le)))⟩

end Issued

theorem ready_endStream {s : State} (r : Result) (k : Nat) (hs : s.seq = .idle) : (endStream r k s).ready = true :=
  (ready_iff _).mpr ⟨hs, rfl⟩

/-- The state in which the host's blocking byte has been issued. -/
def blocking (b : Byte) (s : State) : State :=
  startOp (.write .data b) (writeWord .data b) { s with stream := some ⟨[b], 0⟩ }

theorem issued_blocking (b : Byte) (s : State) : Issued ⟨[b], 0⟩ b (blocking b s) := ⟨rfl, rfl, rfl⟩

theorem exec_writeByteBlocking_of_ready {s : State} (b : Byte) (h : s.ready = true) :
    exec (.writeByteBlocking b) s = .next (blocking b s) :=
  (exec_writeBytes_of_ready [b] h).trans (congrArg _ (issue_of_some s rfl))

/-- Settles O30: the busy polls (`Issued.run_busy_polls`), then the byte sent (`Issued.run_last`). -/
theorem blockingByteRetriesUntilAccepted : Obligations.BlockingByteRetriesUntilAccepted := by
  intro m b s hready hok hbusy hfree
  obtain ⟨v, hrun, hv, -, hp⟩ := (issued_blocking b s).run_busy_polls m (okFor_mono hok (by omega)) hbusy
  have hvfree : busyFlag (polledByte v) = false := hp.polledByte_eq ▸ hfree
  obtain ⟨n, hn⟩ := hv.run_last rfl (hp.okFor hok) hvfree
  obtain ⟨ba, br, bw, bm⟩ := busyHistory_counts m s
  obtain ⟨wa, -, wr, -, -, wm⟩ := writeHistory_counts .data b (nibbleAt v 4) (nibbleAt v 7) rfl
  refine ⟨_, exec_writeByteBlocking_of_ready b hready, 14 * m + n, _, _, (run_add _ _ _ _ hrun).trans hn,
    ready_endStream _ _ rfl, rfl, rfl, gained_append hp.trace (byteSent_progress b v).trace, ?_, ?_, ?_, ?_, rfl, rfl,
    rfl, rfl⟩
  · exact (actions_append _ _).trans (congrArg₂ _ ba wa)
  · exact (busReads_append _ _).trans (congrArg₂ _ br wr)
  · rw [writtenNibbles_append, writtenNibbles_append, writtenNibbles_pollHistory, writtenNibbles_dataHistory]
    exact congrArg (· ++ _) bw
  · exact (minMicros_append _ _).trans (congrArg₂ _ bm wm)

/-- Settles O32: a one-byte character is a blocking byte (`exec_writeChar_of_lt`), sent at once (`Issued.run_last`). -/
theorem charGoesOutAsOneByte : Obligations.CharGoesOutAsOneByte := by
  intro c s hc hready hok hfree
  have hstart := (exec_writeChar_of_lt s hc).trans (exec_writeByteBlocking_of_ready _ hready)
  obtain ⟨n, hn⟩ := (issued_blocking (BitVec.ofNat 8 c) s).run_last rfl hok
    ((busyFlag_eq_decide _).trans (decide_eq_false hfree.not_ge))
  exact ⟨_, hstart, n, _, _, hn, ready_endStream _ _ rfl, rfl, rfl, (byteSent_progress _ _).trace, rfl⟩

/-! ### A sequence never busy -/

/-- What a history in which the bytes go out in order, each after one poll, has of actions, reads and nibbles written. -/
structure SentInOrder (bs : List Byte) (es : List Event) : Prop where
  actions : actions es = 24 * bs.length
  busReads : busReads es = 2 * bs.length
  written : writtenNibbles es = bs.flatMap fun b => [lo4 b, hi4 b]

theorem SentInOrder.cons {bs : List Byte} {es : List Event} (l h : Nibble) (b : Byte) (hes : SentInOrder bs es) :
    SentInOrder (b :: bs) (pollHistory l h ++ dataHistory .data b ++ es) := by
  obtain ⟨wa, -, wr, -, -, -⟩ := writeHistory_counts .data b l h rfl
  refine ⟨?_, ?_, ?_⟩
  · rw [actions_append, wa, hes.actions, List.length_cons, Nat.mul_succ, Nat.add_comm]
  · rw [busReads_append, wr, hes.busReads, List.length_cons, Nat.mul_succ, Nat.add_comm]
  · rw [writtenNibbles_append, writtenNibbles_append, writtenNibbles_pollHistory, writtenNibbles_dataHistory, hes.written]
    rfl

/-- From the issue of the byte at `k`, with `rest` still to go: the rest is sent and the stream ends. -/
theorem run_rest (bs rest : List Byte) (k : Nat) (s : State) (hs : s.seq = .idle) (hrest : bs.drop k = rest)
    (hok : okFor (16 * rest.length) s)
    (hfree : ∀ j, j < rest.length → busyFlag (join (nibbleAt s (16 * j + 4)) (nibbleAt s (16 * j + 7))) = false) :
    ∃ n u es, Sys2Proof.core.run n (issue ⟨bs, k⟩ s) = .next u ∧ u.ready = true ∧ u.res = some .success ∧
      u.accepted = k + rest.length ∧ gained s u es ∧ SentInOrder rest es := by
  induction rest generalizing k s with
  | nil =>
    have hend : bs[k]? = none := List.getElem?_eq_none (List.drop_eq_nil_iff.mp hrest)
    exact ⟨0, _, [], congrArg _ (issue_of_none s hend), ready_endStream _ _ hs, rfl, rfl, (List.append_nil _).symm,
      ⟨rfl, rfl, rfl⟩⟩
  | cons b rest ih =>
    have hbyte : bs[k]? = some b := by rw [← List.head?_drop, hrest, List.head?_cons]
    have hdrop : bs.drop (k + 1) = rest := by rw [← List.tail_drop, hrest, List.tail_cons]
    have hstart : Progress [] 0 s (issue ⟨bs, k⟩ s) := .of_outside_eq (issue_outside _ s)
    have hsent := hstart.trans (byteSent_progress b (issue ⟨bs, k⟩ s))
    have hnow : busyFlag (polledByte (issue ⟨bs, k⟩ s)) = false := hstart.polledByte_eq ▸ hfree 0 (Nat.succ_pos _)
    have hlater : ∀ j, j < rest.length → busyFlag (join (nibbleAt (byteSent b (issue ⟨bs, k⟩ s)) (16 * j + 4))
        (nibbleAt (byteSent b (issue ⟨bs, k⟩ s)) (16 * j + 7))) = false := by
      intro j hj
      have hnext := hfree (j + 1) (Nat.succ_lt_succ hj)
      rw [Nat.mul_succ, Nat.add_comm (16 * j)] at hnext
      simpa only [hsent.nibbleAt_eq, Nat.zero_add, Nat.add_assoc] using hnext
    rw [List.length_cons, Nat.mul_succ, Nat.add_comm] at hok
    obtain ⟨m, hm⟩ := (issued_issue s hbyte).run_not_busy (hstart.okFor (okFor_mono hok (by omega))) hnow
    obtain ⟨n, u, es, hrun, hready, hres, hacc, hg, hes⟩ := ih (k + 1) _ rfl hdrop (hsent.okFor hok) hlater
    refine ⟨m + n, u, _, (run_add _ _ _ _ hm).trans hrun, hready, hres, ?_, gained_append hsent.trace hg, hes.cons _ _ b⟩
    rw [hacc, List.length_cons]
    omega

/-- Settles O31: the sequence is opened at its first byte, and all of it is the rest (`run_rest`). -/
theorem streamSendsBytesInOrder : Obligations.StreamSendsBytesInOrder := by
  intro bs s hready hok hfree
  obtain ⟨hidle, -⟩ := (ready_iff s).mp hready
  obtain ⟨n, u, es, hrun, hu, hres, hacc, hg, hes⟩ := run_rest bs bs 0 s hidle rfl hok hfree
  exact ⟨_, exec_writeBytes_of_ready bs hready, n, u, es, hrun, hu, hres, hacc.trans (Nat.zero_add _), hg, hes.actions,
    hes.busReads, hes.written⟩

/-! ### A stream that hangs -/

/-- With every answer ok and every poll busy, no step of a run ends the stream. -/
theorem stream_stays {st : ByteStream} {b : Byte} {s : State} (h : Issued st b s) (hok : ∀ n, okFor n s)
    (hbusy : ∀ j, busyFlag (join (nibbleAt s (8 * j + 4)) (nibbleAt s (8 * j + 7))) = true) (n : Nat) :
    ∃ u, Sys2Proof.core.run n s = .next u ∧ u.stream = some st ∧ u.accepted = s.accepted := by
  obtain ⟨v, hrun, hv, hacc, hp⟩ := h.run_busy_polls (n / 14) (hok _) fun j _ => hbusy j
  have hvbusy : busyFlag (polledByte v) = true := hp.polledByte_eq ▸ hbusy (n / 14)
  have hpoll := endsAfter_of_busy hv.seq (hp.okFor (hok _)) hvbusy
  have hlt : n % 14 ≤ 13 := Nat.le_of_lt_succ (Nat.mod_lt n (by decide))
  obtain ⟨u, hu, hstream, hkept⟩ := hpoll.stream_on_the_way hlt
  refine ⟨u, ?_, hstream.trans hv.stream, hkept.trans hacc⟩
  rw [← Nat.div_add_mod n 14]
  exact (run_add _ _ _ _ hrun).trans hu

/-- An environment that answers every read with the same nibble for ever. -/
theorem lasting_answers {s : State} {v : Nibble} (henv : s.env = []) (hrest : s.envRest = some (.ok (levelsOf v))) (k : Nat) :
    s.answerAt k = .ok (levelsOf v) ∧ nibbleAt s k = v := by
  have ha : s.answerAt k = .ok (levelsOf v) := by rw [answerAt_eq, henv, hrest, answerOf_lasting]
  exact ⟨ha, by simp only [nibbleAt, ha, nibbleOf_levelsOf]⟩

/-- Settles O33: the busy polls repeat (`Issued.run_busy_polls`), and no step between them ends the stream (`stream_stays`). -/
theorem streamCanHang : Obligations.StreamCanHang := by
  refine ⟨fun b s hready hok hbusy => ?_, fun b s hready henv hrest => ?_⟩
  · exact ⟨_, exec_writeByteBlocking_of_ready b hready,
      stream_stays (issued_blocking b s) (fun _ k _ => hok k) hbusy⟩
  · have hnibble (k : Nat) : nibbleAt (blocking b s) k = 8 := (lasting_answers henv hrest k).2
    have hok (n : Nat) : okFor n (blocking b s) := fun k _ => ⟨_, (lasting_answers henv hrest k).1⟩
    refine ⟨_, exec_writeByteBlocking_of_ready b hready, fun m => ?_⟩
    obtain ⟨v, hrun, hv, -, hp⟩ := (issued_blocking b s).run_busy_polls m (hok _) fun j _ => by
      rw [hnibble, hnibble]
      rfl
    have hes : busyHistory m (blocking b s) = (List.replicate m (pollHistory 8 8)).flatten := by
      simp [busyHistory, hnibble, List.flatMap_def]
    exact ⟨v, hrun, hv.stream, hv.seq, hes ▸ hp.trace⟩

end Sys2Proof.Machine

/-! PROOFS. The instruction table: the two named instructions, the check against INSTR_SET and the machine without one
(44_instruction_table.md R166 to R169). -/

namespace Sys2Proof

/-! ### The well-formedness check -/

theorem checkInstrByte_of_mem {set : List Byte} {i : Byte} (h : i ∈ set) : checkInstrByte set i = .ok () :=
  if_pos (List.contains_iff_mem.mpr h)

theorem checkInstrByte_of_notMem {set : List Byte} {i : Byte} (h : i ∉ set) :
    checkInstrByte set i = .error (.notInInstrSet i) := if_neg (mt List.contains_iff_mem.mp h)

theorem Instr.wellFormedIn_of_check {set : List Byte} {i : Instr} (h : i.check set = .ok ()) : i.wellFormedIn set = true := by
  rw [Instr.wellFormedIn, h]

/-- The bytes of CLEAR_DISPLAY and RETURN_HOME are in the table of every build (R168). -/
theorem namedBytes_mem_instrSet : 0x01#8 ∈ Config.instrSet ∧ 0x02#8 ∈ Config.instrSet :=
  ⟨List.mem_cons_self, List.mem_cons_of_mem _ List.mem_cons_self⟩

end Sys2Proof

namespace Sys2Proof.Machine

/-- Settles O20: the check asks for membership (`checkInstrByte_of_mem`, `checkInstrByte_of_notMem`), the machine only whether
it is ready (`exec_write_of_ready`). -/
theorem instrSetCheckedOutsideTheMachine : Obligations.InstrSetCheckedOutsideTheMachine := by
  refine ⟨?_, fun set i hi => ⟨checkInstrByte_of_notMem hi, checkInstrByte_of_notMem hi⟩, fun b s hready => ?_⟩
  · obtain ⟨hmem1, hmem2⟩ := namedBytes_mem_instrSet
    have hclear := checkInstrByte_of_mem hmem1
    have hhome := checkInstrByte_of_mem hmem2
    exact ⟨Instr.wellFormedIn_of_check hclear, Instr.wellFormedIn_of_check hhome, Instr.wellFormedIn_of_check hclear,
      Instr.wellFormedIn_of_check hhome⟩
  · obtain ⟨-, hinstr, -⟩ := exec_write_of_ready hready .instr b
    exact ⟨_, hinstr rfl, rfl⟩

/-! ### The named instructions -/

/-- CLEAR_DISPLAY is WRITE_INSTR 0x01 (R166). -/
theorem exec_clearDisplay_eq (s : State) : exec .clearDisplay s = exec (.writeInstr 0x01) s := rfl

/-- RETURN_HOME is WRITE_INSTR 0x02 (R167). -/
theorem exec_returnHome_eq (s : State) : exec .returnHome s = exec (.writeInstr 0x02) s := rfl

theorem evt8s_append (t t' : List Event) : evt8s (t ++ t') = evt8s t ++ evt8s t' := List.map_append

/-- The bytes recorded by the data phase of CLEAR_DISPLAY (R166). -/
theorem evt8s_dataHistory_clearDisplay : evt8s (dataHistory .instr 0x01) =
    [0x00, 0x20, 0x71, 0x50, 0x61, 0x40, 0x61, 0x70, 0x50, 0x61, 0x40, 0x61] := rfl

/-- The bytes recorded by the data phase of RETURN_HOME (R167). -/
theorem evt8s_dataHistory_returnHome : evt8s (dataHistory .instr 0x02) =
    [0x00, 0x20, 0x72, 0x50, 0x61, 0x40, 0x61, 0x70, 0x50, 0x61, 0x40, 0x61] := rfl

/-- Whatever means a WRITE_INSTR of `b` sends `b` when the poll is not busy: Success, the high nibble left on the bus, and
after the poll the bytes of `b`'s data phase. -/
theorem sends_of_exec_eq_writeInstr {i : Instr} {b : Byte} {s : State} (hi : exec i s = exec (.writeInstr b) s)
    (hready : s.ready = true) (hok : okFor 16 s) (hfree : (polledByte s).toNat < 0x80) :
    ∃ t u, exec i s = .next t ∧ runToIdle 26 t = .next u ∧ u.res = some .success ∧ u.dbQ = some (hi4 b) ∧
      evt8s u.trace = evt8s (s.trace ++ pollHistory (nibbleAt s 4) (nibbleAt s 7)) ++ evt8s (dataHistory .instr b) := by
  obtain ⟨t, -, hinstr, -, hrun⟩ := writeTransfersByte s .instr b hready hok hfree
  exact ⟨t, _, hi.trans (hinstr rfl), hrun, rfl, rfl, evt8s_append _ _⟩

/-- Settles O24: the two are WRITE_INSTR of their bytes (`exec_clearDisplay_eq`, `exec_returnHome_eq`), which are sent as every
byte is (`sends_of_exec_eq_writeInstr`). -/
theorem namedInstructionsTransfer : Obligations.NamedInstructionsTransfer := by
  refine ⟨fun s => ⟨exec_clearDisplay_eq s, exec_returnHome_eq s⟩, fun s hready hok hfree => ⟨?_, ?_⟩⟩
  · rw [← evt8s_dataHistory_clearDisplay]
    exact sends_of_exec_eq_writeInstr (exec_clearDisplay_eq s) hready hok hfree
  · rw [← evt8s_dataHistory_returnHome]
    exact sends_of_exec_eq_writeInstr (exec_returnHome_eq s) hready hok hfree

end Sys2Proof.Machine

/-! PROOFS. Failures: FAIL alone, a failing action as a step, and every operation's end whatever the environment answers
(60_exceptions.md R175 to R180). -/

namespace Sys2Proof.Machine

/-! ### Taking a failure -/

/-- Settles O16, by the line whose latch is lost; the error value is the free one of log entry 8. -/
theorem failTakesFailure : Obligations.FailTakesFailure := by
  intro l s
  refine ⟨Config.freeErrInfo s.draws, ?_⟩
  cases l <;> rfl

/-- The data latch is lost exactly in a failed bus write (R178, log entry 9). -/
theorem dbLost_of_recorded {i : Instr} {l : Line} {e : Event} (hl : actionLine i = some l) (he : recorded 0 i = [e])
    (q : Option Nibble) : dbLost i l q = if l = .bus ∧ isBusWrite e = true then none else q := by
  cases i with
  | rsLow | rsHigh | rwLow | rwHigh | eLow | eHigh | busWrite _ | busRead _ =>
    cases hl
    cases he
    rfl
  | _ => cases hl

/-- Settles O44: the row at such a step is a fallible primitive (`exists_rowStep`), and answered err it leaves `afterErr`. -/
theorem failureEndsOperation : Obligations.FailureEndsOperation := by
  intro s op upc l x hs hle hline hx
  obtain ⟨m, hm⟩ := exists_row hle
  obtain ⟨t, ht, hr⟩ := exists_rowStep hs hm
  cases hr with
  | failed i l' x' hl hn ha =>
    cases hn.symm.trans hline
    cases ha.symm.trans hx
    obtain ⟨e, haction, he⟩ := recorded_of_actionLine hl 0
    have htrace : s.trace ++ (recorded 0 i ++ [.fail l]) = s.trace ++ [e, .fail l] := by rw [he]; rfl
    exact ⟨_, e, ht, haction, htrace, rfl, rfl, rfl, rfl, rfl, dbLost_of_recorded hl he s.dbQ, rfl, rfl, rfl, rfl, rfl, rfl,
      rfl, rfl, rfl, rfl, rfl⟩
  | acted _ _ _ _ _ _ _ _ ha => cases ha.symm.trans hx
  | delayed _ hn => cases hn.symm.trans hline
  | assembled h12 => exact absurd h12 (fallibleLine_ne hline).1
  | finished h25 => exact absurd h25 (fallibleLine_ne hline).2

/-! ### Every operation ends -/

/-- An operation begun in `s` has ended in `t`: idle, with the result `r`, after at most `n` actions. -/
structure EndsWithin (n : Nat) (r : Result) (s t : State) : Prop where
  idle : t.seq = .idle
  result : t.res = some r
  bound : ∃ es, gained s t es ∧ actions es ≤ n

theorem EndsWithin.mono {m n : Nat} {r : Result} {s t : State} (h : EndsWithin m r s t) (hmn : m ≤ n) :
    EndsWithin n r s t := by
  obtain ⟨es, hg, hle⟩ := h.bound
  exact ⟨h.idle, h.result, es, hg, hle.trans hmn⟩

/-- A failed poll attempts no more actions than a whole one (R122, R126). -/
theorem failedPoll_actions_le {k : Nat} (hk : k < 8) (l : Nibble) :
    actions (failedPoll l k ++ [.fail (pollLine k)]) ≤ 12 := by
  interval_cases k <;> exact Nat.le_of_ble_eq_true rfl

/-- A failed data phase attempts no more actions than a whole one (R136, R140). -/
theorem failedData_actions_le {k : Nat} (hk : k < 8) (kind : Kind) (b : Byte) :
    actions (failedData kind b k ++ [.fail (dataLine k)]) ≤ 12 := by
  interval_cases k <;> cases kind <;> exact Nat.le_of_ble_eq_true rfl

theorem endsWithin_pollFailed {k : Nat} (hk : k < 8) (x : ErrInfos) (s : State) :
    EndsWithin 12 (.failed (failureOn (pollLine k) x)) s (pollFailed k x s) :=
  ⟨rfl, rfl, _, rfl, failedPoll_actions_le hk _⟩

theorem endsWithin_polled (r : Result) (s : State) : EndsWithin 12 r s (endOp r (polled s)) := by
  obtain ⟨ha, -⟩ := pollHistory_counts (nibbleAt s 4) (nibbleAt s 7)
  exact ⟨rfl, rfl, _, polled_gained s, ha.le⟩

/-- What comes after a poll and attempts no more than 12 actions ends a write within 24. -/
theorem EndsWithin.after_poll {r : Result} {b : Byte} {s t : State} (h : EndsWithin 12 r (operandSplit b (polled s)) t) :
    EndsWithin 24 r s t := by
  obtain ⟨es, hg, hle⟩ := h.bound
  obtain ⟨ha, -⟩ := pollHistory_counts (nibbleAt s 4) (nibbleAt s 7)
  refine ⟨h.idle, h.result, _, gained_append (polled_gained s) hg, ?_⟩
  rw [actions_append]
  omega

theorem endsWithin_dataSent (kind : Kind) (b : Byte) (s : State) :
    EndsWithin 12 .success s (endOp .success (dataSent kind b s)) := by
  obtain ⟨ha, -⟩ := dataHistory_counts kind b
  exact ⟨rfl, rfl, _, rfl, ha.le⟩

theorem endsWithin_dataFailed {k : Nat} (hk : k < 8) (kind : Kind) (b : Byte) (x : ErrInfos) (s : State) :
    EndsWithin 12 (.failed (failureOn (dataLine k) x)) s (dataFailed kind b k x s) :=
  ⟨rfl, rfl, _, rfl, failedData_actions_le hk kind b⟩

/-- A poll ends in the status read or in a failure (R120). -/
theorem stateProc_endsWithin (s : State) :
    ∃ r, EndsWithin 12 r s (stateProc s) ∧ ((∃ v, r = .successStatus v) ∨ ∃ x, r = .failed x) := by
  obtain hok | ⟨k, x, hk, hok, hx⟩ := okFor_or_first_err 8 s
  · rw [stateProc, pollProc_of_okFor hok]
    exact ⟨_, endsWithin_polled _ s, .inl ⟨_, rfl⟩⟩
  · rw [stateProc, pollProc_of_first_err hk hok hx]
    exact ⟨_, endsWithin_pollFailed hk x s, .inr ⟨_, rfl⟩⟩

/-- A write ends in a failure of its poll, busy, in a failure of its data phase, or with the byte sent; never with a status
(R130). -/
theorem writeProc_endsWithin (kind : Kind) (b : Byte) (s : State) :
    ∃ r, EndsWithin 24 r s (writeProc kind b s) ∧ ∀ v, r ≠ .successStatus v := by
  obtain hok | ⟨k, x, hk, hok, hx⟩ := okFor_or_first_err 8 s
  · cases hbusy : busyFlag (polledByte s) with
    | true =>
      rw [writeProc_of_busy hok hbusy]
      exact ⟨_, (endsWithin_polled _ s).mono (by decide), nofun⟩
    | false =>
      rw [writeProc_of_not_busy hok hbusy]
      have hleaves := dataActions_leaves kind b
      obtain hdata | ⟨k, x, hk, hdata, hx⟩ := okFor_or_first_err 8 (operandSplit b (polled s))
      · rw [hleaves.ok _ hdata]
        exact ⟨_, (endsWithin_dataSent kind b _).after_poll, nofun⟩
      · rw [hleaves.err _ k x hk hdata hx]
        exact ⟨_, (endsWithin_dataFailed hk kind b x _).after_poll, nofun⟩
  · rw [writeProc, pollProc_of_first_err hk hok hx]
    exact ⟨_, (endsWithin_pollFailed hk x s).mono (by decide), nofun⟩

/-- Settles O49: the rows do what the pseudocode says (`stepTablesMeetPseudocode`), which ends in every case of what the
environment answers (`stateProc_endsWithin`, `writeProc_endsWithin`). -/
theorem operationsEnd : Obligations.OperationsEnd := by
  intro s op cmd
  have hrun := stepTablesMeetPseudocode s op cmd
  cases op with
  | state =>
    obtain ⟨r, hends, hr⟩ := stateProc_endsWithin (startOp .state cmd s)
    obtain ⟨es, hg, hle⟩ := hends.bound
    refine ⟨_, r, es, hrun, hends.idle, hends.result, hg, hle.trans (by decide), fun _ => ⟨hle, ?_⟩, fun h => absurd rfl h⟩
    obtain ⟨v, rfl⟩ | ⟨x, rfl⟩ := hr <;> exact ⟨nofun, nofun⟩
  | write kind b =>
    obtain ⟨r, hends, hr⟩ := writeProc_endsWithin kind b (startOp (.write kind b) cmd s)
    obtain ⟨es, hg, hle⟩ := hends.bound
    exact ⟨_, r, es, hrun, hends.idle, hends.result, hg, hle, nofun, fun _ => hr⟩

end Sys2Proof.Machine

/-! PROOFS. The ticks of an operation on the clock with no error port asserted: the rows take the ticks, and the action-level
machine, answered what the ports sample, says what they do (10_state.md R37, 70_reset_and_hazards.md R227; log entry 13). -/

namespace Sys2Proof.Machine

/-! ### The ticks of a row -/

/-- The state with the answers to come that quiet input ports give: ok with the sampled levels for ever (R37). -/
def onPorts (p : PortsIn) (s : State) : State := { s with env := [], envRest := some (.ok (levelsOf p.dbI)) }

/-- The ticks a row takes: CLK_PER_US for a delay of 1, else one (R227). -/
def rowTicks : Option Micro → Nat
  | some (.action (.delayUs _)) => Config.clkPerUs
  | _ => 1

/-- The ticks of the `n` rows from `upc` on. -/
def ticksOfRows (op : Op) (upc : BitVec 5) : Nat → Nat
  | 0 => 0
  | n + 1 => rowTicks (stepTable op upc) + ticksOfRows op (upc + 1) n

theorem rowTicks_pos (m : Option Micro) : 0 < rowTicks m := by
  unfold rowTicks
  split <;> exact Nat.succ_pos _

theorem ticksOfRows_succ_ne_zero (op : Op) (upc : BitVec 5) (n : Nat) : ticksOfRows op upc (n + 1) ≠ 0 :=
  (Nat.add_pos_left (rowTicks_pos _) _).ne'

theorem QuietPorts.lineErr_eq_false {p : PortsIn} (h : QuietPorts p) (l : Line) : lineErr p l = false := by
  obtain ⟨-, hrs, hrw, hen, hbus⟩ := h
  cases l <;> assumption

theorem rowTicks_of_microLine {m : Micro} {l : Line} (h : microLine m = some l) : rowTicks (some m) = 1 := by
  cases m with
  | action i =>
    cases i with
    | delayUs _ => cases h
    | _ => rfl
  | _ => rfl

theorem onPorts_answer (p : PortsIn) (s : State) : (onPorts p s).answer = .ok (levelsOf p.dbI) := rfl

/-- An internal completion does not look at the answers to come. -/
theorem onPorts_complete (p : PortsIn) (m : Micro) (op : Op) (upc : BitVec 5) (s : State) :
    onPorts p (complete m op upc s) = complete m op upc (onPorts p s) := by
  cases m with
  | assemble =>
    cases op with
    | state => rfl
    | write kind b =>
      cases hb : busyFlag (join s.loQ s.hiQ) <;> simp [complete, assembleStatus, onPorts, hb, endOp]
  | _ => rfl

theorem complete_tmr (m : Micro) (op : Op) (upc : BitVec 5) (s : State) : (complete m op upc s).tmr = s.tmr := by
  cases m with
  | assemble =>
    obtain ⟨r, ha, -⟩ | ⟨kind, b, -, -, ha⟩ := assembleStatus_cases op upc s <;> simp [complete, ha]
  | _ => rfl

section QuietTicks

variable {p : PortsIn} {c : Clocked} {op : Op} {upc : BitVec 5} {m : Micro}

/-- An internal completion takes one tick. -/
theorem tick_of_completion (hrst : p.rst = false) (hs : c.core.seq = .run op upc) (hm : stepTable op upc = some m)
    (hi : ∀ s, microInstr m s = none) :
    tick p c = ⟨complete m op upc c.core, (complete m op upc c.core).seq == .idle, c.resInfo⟩ := by
  have hlive : liveTick p c.core = complete m op upc c.core := by
    rw [liveTick_of_run hs hm]
    simp only [runTick, hi, step_of_complete hs hm (hi _), settled]
  have herr : errsNow p c.core = false := by simp only [errsNow, rowOf_of_run hs, hm, hi]
  simp [tick, hrst, hlive, herr, hs]

/-- What the ticks of a row lead to: `t`, in which the action-level machine, the answers those of the ports, goes on; a result
is strobed exactly if the row has ended the operation. -/
structure RowTicked (p : PortsIn) (n : Nat) (c : Clocked) (t : State) : Prop where
  ticks : ticks p n c = ⟨t, t.seq == .idle, c.resInfo⟩
  tmr : t.tmr = 0
  step : step (onPorts p c.core) = .next (onPorts p t)

theorem rowTicked_of_completion (hrst : p.rst = false) (h0 : c.core.tmr = 0) (hs : c.core.seq = .run op upc)
    (hm : stepTable op upc = some m) (hi : ∀ s, microInstr m s = none) :
    RowTicked p 1 c (complete m op upc c.core) where
  ticks := tick_of_completion hrst hs hm hi
  tmr := (complete_tmr m op upc c.core).trans h0
  step := by rw [step_of_complete (s := onPorts p c.core) hs hm (hi _), onPorts_complete]

theorem rowTicked_of_fallible {l : Line} (hq : QuietPorts p) (h0 : c.core.tmr = 0) (hs : c.core.seq = .run op upc)
    (hm : stepTable op upc = some m) (hl : microLine m = some l) : ∃ t, RowTicked p 1 c t := by
  have ⟨hrst, _⟩ := hq
  obtain ⟨i, hi, hil⟩ := microInstr_of_microLine hl c.core
  have hi' : microInstr m (onPorts p c.core) = some i := by cases m <;> exact hi
  refine ⟨_, tick_of_no_error hrst hs hm hi hil (hq.lineErr_eq_false l), by simp [afterOk, portAnswered, h0], ?_⟩
  rw [step_of_ok (s := onPorts p c.core) hs hm hi' hil (onPorts_answer p c.core)]
  cases m <;> rfl

theorem rowTicked_of_delay (hrst : p.rst = false) (h0 : c.core.tmr = 0) (hs : c.core.seq = .run op upc)
    (hm : stepTable op upc = some (.action (.delayUs 1))) : ∃ t, RowTicked p Config.clkPerUs c t := by
  refine ⟨_, delayTakesClkPerUsTicks p c op upc hrst h0 hs hm, h0, ?_⟩
  rw [step_of_delay (s := onPorts p c.core) hs hm]
  simp [goOn, delayUs, onPorts, State.record, storeYield, h0]

/-- In its ticks every row does what its step does in the action-level machine. -/
theorem exists_rowTicked (hq : QuietPorts p) (h0 : c.core.tmr = 0) (hs : c.core.seq = .run op upc)
    (hm : stepTable op upc = some m) : ∃ t, RowTicked p (rowTicks (some m)) c t := by
  have ⟨hrst, _⟩ := hq
  obtain ⟨l, hl, -⟩ | ⟨rfl, -⟩ | ⟨rfl, -⟩ | ⟨rfl, -⟩ := stepTable_kind hm
  · rw [rowTicks_of_microLine hl]
    exact rowTicked_of_fallible hq h0 hs hm hl
  · exact rowTicked_of_delay hrst h0 hs hm
  · exact ⟨_, rowTicked_of_completion hrst h0 hs hm fun _ => rfl⟩
  · exact ⟨_, rowTicked_of_completion hrst h0 hs hm fun _ => rfl⟩

/-- A row that has a step ticks to the state of that step. -/
theorem rowTicked_of_step {u : State} (hq : QuietPorts p) (h0 : c.core.tmr = 0) (hs : c.core.seq = .run op upc)
    (hu : step (onPorts p c.core) = .next u) :
    ∃ t, RowTicked p (rowTicks (stepTable op upc)) c t ∧ u = onPorts p t := by
  obtain ⟨hle, -⟩ := rowStep_of_step (s := onPorts p c.core) hs hu
  obtain ⟨m, hm⟩ := exists_row hle
  obtain ⟨t, ht⟩ := exists_rowTicked hq h0 hs hm
  rw [hm]
  exact ⟨t, ht, Host.Outcome.next.inj (hu.symm.trans ht.step)⟩

end QuietTicks

/-! ### The ticks of an operation -/

theorem ticks_add (p : PortsIn) (m n : Nat) (c : Clocked) : ticks p (m + n) c = ticks p n (ticks p m c) := by
  induction m generalizing c with
  | zero => rw [Nat.zero_add, ticks]
  | succ m ih => rw [Nat.add_right_comm, ticks, ticks, ih]

/-- No tick looks at the strobe of the one before. -/
theorem ticks_of_strobe {p : PortsIn} {n : Nat} (hn : n ≠ 0) (c : Clocked) (v : Bool) :
    ticks p n c = ticks p n { c with resValid := v } := by
  cases n with
  | zero => exact absurd rfl hn
  | succ n => rfl

/-- The rows of an operation take their ticks: before the last no result is strobed, and with the last one it is. -/
theorem ticks_of_endsAfter {p : PortsIn} {info : BitVec Config.errW} {op : Op} {upc : BitVec 5} {n : Nat} {s t : State}
    (hq : QuietPorts p) (h0 : s.tmr = 0) (hs : s.seq = .run op upc) (h : EndsAfter (n + 1) (onPorts p s) t) :
    (∃ u, ticks p (ticksOfRows op upc n) ⟨s, false, info⟩ = ⟨u, false, info⟩ ∧
      u.seq = .run op (upc + BitVec.ofNat 5 n)) ∧
    ∃ w, ticks p (ticksOfRows op upc (n + 1)) ⟨s, false, info⟩ = ⟨w, true, info⟩ ∧ onPorts p w = t := by
  induction n generalizing s upc with
  | zero =>
    cases h with
    | last _ hstep hidle =>
      obtain ⟨w, hw, rfl⟩ := rowTicked_of_step (c := ⟨s, false, info⟩) hq h0 hs hstep
      have hend : w.seq = .idle := hidle
      refine ⟨⟨s, rfl, by simp [hs]⟩, w, ?_, rfl⟩
      rw [ticksOfRows, ticksOfRows, Nat.add_zero, hw.ticks, hend]
      rfl
    | more _ _ _ rest => cases rest
  | succ n ih =>
    cases h with
    | more hs' hstep hnext rest =>
      cases hs'.symm.trans hs
      obtain ⟨v, hv, rfl⟩ := rowTicked_of_step (c := ⟨s, false, info⟩) hq h0 hs hstep
      have hrun : v.seq = .run op (upc + 1) := hnext
      have hrow (k : Nat) : ticks p (ticksOfRows op upc (k + 1)) ⟨s, false, info⟩ =
          ticks p (ticksOfRows op (upc + 1) k) ⟨v, false, info⟩ := by
        rw [ticksOfRows, ticks_add, hv.ticks, hrun]
        rfl
      obtain ⟨⟨u, hu, huseq⟩, w, hw, hwt⟩ := ih hv.tmr hrun rest
      refine ⟨⟨u, (hrow n).trans hu, ?_⟩, w, (hrow (n + 1)).trans hw, hwt⟩
      rw [huseq, BitVec.add_assoc, Nat.add_comm n, BitVec.ofNat_add]
      rfl

/-- A pulse has two delays (R110). -/
theorem ticksOfRows_pulse {op : Op} {upc : BitVec 5} (hm : stepTable op upc = some (.action .eHigh)) (n : Nat) :
    ticksOfRows op upc (n + 4) = 2 + 2 * Config.clkPerUs + ticksOfRows op (upc + 1 + 1 + 1 + 1) n := by
  obtain ⟨hdelayHigh, hlow, hdelayLow⟩ := pulse_rows hm
  simp only [ticksOfRows, rowTicks, hm, hdelayHigh, hlow, hdelayLow]
  omega

/-- The twelve actions of a poll have two pulses (R121). -/
theorem ticksOfRows_poll (op : Op) (n : Nat) :
    ticksOfRows op 0 (n + 12) = 8 + 4 * Config.clkPerUs + ticksOfRows op 12 n := by
  have haddress : ticksOfRows op 0 (n + 12) = 1 + (1 + ticksOfRows op 2 (n + 10)) := rfl
  have hpulseLo : ticksOfRows op 2 (n + 10) = 2 + 2 * Config.clkPerUs + ticksOfRows op 6 (n + 6) :=
    ticksOfRows_pulse rfl (n + 6)
  have hlo : ticksOfRows op 6 (n + 6) = 1 + ticksOfRows op 7 (n + 5) := rfl
  have hpulseHi : ticksOfRows op 7 (n + 5) = 2 + 2 * Config.clkPerUs + ticksOfRows op 11 (n + 1) :=
    ticksOfRows_pulse rfl (n + 1)
  have hhi : ticksOfRows op 11 (n + 1) = 1 + ticksOfRows op 12 n := rfl
  omega

/-- The twelve actions of a data phase have two pulses (R133). -/
theorem ticksOfRows_data (kind : Kind) (b : Byte) (n : Nat) :
    ticksOfRows (.write kind b) 13 (n + 12) = 8 + 4 * Config.clkPerUs + ticksOfRows (.write kind b) 25 n := by
  have hselect : ticksOfRows (.write kind b) 13 (n + 12) = 1 + (1 + (1 + ticksOfRows (.write kind b) 16 (n + 9))) := by
    cases kind <;> rfl
  have hpulseLo : ticksOfRows (.write kind b) 16 (n + 9) =
      2 + 2 * Config.clkPerUs + ticksOfRows (.write kind b) 20 (n + 5) := ticksOfRows_pulse rfl (n + 5)
  have hhi : ticksOfRows (.write kind b) 20 (n + 5) = 1 + ticksOfRows (.write kind b) 21 (n + 4) := rfl
  have hpulseHi : ticksOfRows (.write kind b) 21 (n + 4) =
      2 + 2 * Config.clkPerUs + ticksOfRows (.write kind b) 25 n := ticksOfRows_pulse rfl n
  omega

theorem ticksOfRows_write (kind : Kind) (b : Byte) (n : Nat) :
    ticksOfRows (.write kind b) 0 (n + 25) = 16 + 8 * Config.clkPerUs + 1 + ticksOfRows (.write kind b) 25 n := by
  have hpoll : ticksOfRows (.write kind b) 0 (n + 25) = 8 + 4 * Config.clkPerUs + ticksOfRows (.write kind b) 12 (n + 13) :=
    ticksOfRows_poll (.write kind b) (n + 13)
  have htest : ticksOfRows (.write kind b) 12 (n + 13) = 1 + ticksOfRows (.write kind b) 13 (n + 12) := rfl
  have hdata := ticksOfRows_data kind b n
  omega

/-! ### The ends of an operation on quiet ports -/

theorem okFor_onPorts (p : PortsIn) (n : Nat) (s : State) : okFor n (onPorts p s) :=
  fun _ _ => ⟨levelsOf p.dbI, rfl⟩

@[simp] theorem nibbleAt_onPorts (p : PortsIn) (s : State) (k : Nat) : nibbleAt (onPorts p s) k = p.dbI :=
  nibbleOf_levelsOf p.dbI

@[simp] theorem polledByte_onPorts (p : PortsIn) (s : State) : polledByte (onPorts p s) = join p.dbI p.dbI := by
  simp [polledByte]

/-- Step 12 never ends an operation with Success (R121, R132). -/
theorem assembleStatus_res_ne_success {op : Op} {upc : BitVec 5} {s : State} (h : (assembleStatus op upc s).seq = .idle) :
    (assembleStatus op upc s).res ≠ some .success := by
  cases op with
  | state => nofun
  | write kind b =>
    simp only [assembleStatus] at h ⊢
    split at h
    next hb => simp [hb]
    next => cases h

/-- An operation that does not fail ends with Success at its step 25 and else at its step 12 (R27). -/
theorem EndsAfter.steps_of_not_failed {op : Op} {upc : BitVec 5} {n : Nat} {s t : State} (h : EndsAfter n s t)
    (hs : s.seq = .run op upc) (hres : ∀ x, t.res ≠ some (.failed x)) :
    upc.toNat + n = if t.res = some .success then 26 else 13 := by
  induction h generalizing upc with
  | last hs' h ht =>
    cases hs'.symm.trans hs
    obtain ⟨-, hr⟩ := rowStep_of_step hs h
    cases hr with
    | assembled hn =>
      rw [if_neg (assembleStatus_res_ne_success ht), hn]
    | acted | delayed => cases ht
    | failed => exact absurd rfl (hres _)
    | finished hn => simp [hn]
  | more hs' h hu _ ih =>
    cases hs'.symm.trans hs
    obtain ⟨hle, -⟩ := rowStep_of_step hs h
    have hrest := ih hu hres
    rw [upc_toNat_succ hle] at hrest
    omega

/-- A poll at its first step ends as its pseudocode says. -/
theorem endsAfter_stateProc {s : State} (hs : s.seq = .run .state 0) (hidle : (stateProc s).seq = .idle) :
    ∃ n, EndsAfter n s (stateProc s) := by
  have hself : { s with seq := .run .state 0 } = s := by rw [← hs]
  have hrun := runFrom_state s
  rw [runFrom, hself] at hrun
  exact endsAfter_of_runToIdle _ hs hrun hidle

theorem endsAfter_of_polled {s : State} (hs : s.seq = .run .state 0) (hok : okFor 8 s) :
    EndsAfter 13 s (endOp (.successStatus (polledByte s)) (polled s)) := by
  have hpoll : stateProc s = endOp (.successStatus (polledByte s)) (polled s) := by
    rw [stateProc, pollProc_of_okFor hok]
    rfl
  obtain ⟨n, hn⟩ := endsAfter_stateProc hs (hpoll ▸ rfl)
  rw [hpoll] at hn
  obtain rfl : n = 13 := (Nat.zero_add n).symm.trans (hn.steps_of_not_failed hs nofun)
  exact hn

theorem endsAfter_of_sent {kind : Kind} {b : Byte} {s : State} (hs : s.seq = .run (.write kind b) 0) (hok : okFor 16 s)
    (hbusy : busyFlag (polledByte s) = false) :
    EndsAfter 26 s (endOp .success (dataSent kind b (operandSplit b (polled s)))) := by
  have hwrite := writeProc_of_okFor (kind := kind) (b := b) hok hbusy
  obtain ⟨n, hn⟩ := endsAfter_writeProc hs (hwrite ▸ rfl)
  rw [hwrite] at hn
  obtain rfl : n = 26 := (Nat.zero_add n).symm.trans (hn.steps_of_not_failed hs nofun)
  exact hn

/-- An operation that ends after `n + 1` rows: no strobe after the ticks of `n` of them, and after those of all the ports of
its end, with the strobe. -/
theorem ports_of_endsAfter {p : PortsIn} {c : Clocked} {op : Op} {n : Nat} {t : State} (hn : n ≠ 0) (hq : QuietPorts p)
    (h0 : c.core.tmr = 0) (hs : c.core.seq = .run op 0) (h : EndsAfter (n + 1) (onPorts p c.core) t) :
    (∃ u, ticks p (ticksOfRows op 0 n) c = ⟨u, false, c.resInfo⟩ ∧ u.seq = .run op (BitVec.ofNat 5 n)) ∧
      portsOut (ticks p (ticksOfRows op 0 (n + 1)) c) = portsOut ⟨t, true, c.resInfo⟩ := by
  obtain ⟨⟨u, hu, hu'⟩, w, hw, rfl⟩ := ticks_of_endsAfter (info := c.resInfo) hq h0 hs h
  obtain ⟨k, rfl⟩ := Nat.exists_eq_succ_of_ne_zero hn
  rw [ticks_of_strobe (ticksOfRows_succ_ne_zero op 0 k) c false,
    ticks_of_strobe (ticksOfRows_succ_ne_zero op 0 (k + 1)) c false]
  refine ⟨⟨u, hu, by simpa using hu'⟩, ?_⟩
  rw [hw]
  rfl

/-- The ports when an operation has ended with its poll. -/
theorem portsOut_polled (p : PortsIn) (s : State) (r : Result) (info : BitVec Config.errW) :
    portsOut ⟨endOp r (polled (onPorts p s)), true, info⟩ =
      { cmdReady := true, resValid := true, resKind := r.kindCode, resStatus := r.statusByte, resLine := r.lineCode,
        resInfo := info, rs := .L, rw := .H, e := .L, dbO := s.dbQ,
        dbOe := Config.dbOePolicy (evt8s (s.trace ++ pollHistory p.dbI p.dbI)) } := by
  rw [polled, nibbleAt_onPorts, nibbleAt_onPorts]
  rfl

/-- The ports when a write has sent its byte. -/
theorem portsOut_sent (p : PortsIn) (s : State) (kind : Kind) (b : Byte) (info : BitVec Config.errW) :
    portsOut ⟨endOp .success (dataSent kind b (operandSplit b (polled (onPorts p s)))), true, info⟩ =
      { cmdReady := true, resValid := true, resKind := 0, resStatus := 0, resLine := 0, resInfo := info,
        rs := rsLevelOf kind, rw := .L, e := .L, dbO := some (hi4 b),
        dbOe := Config.dbOePolicy (evt8s (s.trace ++ pollHistory p.dbI p.dbI ++ dataHistory kind b)) } := by
  rw [polled, nibbleAt_onPorts, nibbleAt_onPorts]
  rfl

/-- Settles O55: the thirteen rows of the poll (`endsAfter_of_polled`) take their ticks (`ports_of_endsAfter`,
`ticksOfRows_poll`). -/
theorem stateTakesItsTicks : Obligations.StateTakesItsTicks := by
  intro p c hq h0 hs
  have hends := endsAfter_of_polled (s := onPorts p c.core) hs (okFor_onPorts p 8 c.core)
  obtain ⟨hrunning, hports⟩ := ports_of_endsAfter (n := 12) (by decide) hq h0 hs hends
  rw [ticksOfRows_poll .state 0] at hrunning
  rw [ticksOfRows_poll .state 1] at hports
  rw [portsOut_polled, polledByte_onPorts] at hports
  exact ⟨hrunning, hports⟩

/-- Settles O56: the rows of a write that is sent (`endsAfter_of_sent`) and of one that is busy (`endsAfter_of_busy`) take their
ticks (`ports_of_endsAfter`, `ticksOfRows_write`, `ticksOfRows_poll`). -/
theorem writeTakesItsTicks : Obligations.WriteTakesItsTicks := by
  intro p c kind b hq h0 hs
  have hok (n : Nat) : okFor n (onPorts p c.core) := okFor_onPorts p n c.core
  refine ⟨fun hfree => ?_, fun hbusy => ?_⟩
  · have hends := endsAfter_of_sent (s := onPorts p c.core) hs (hok 16) ((polledByte_onPorts p c.core).symm ▸ hfree)
    obtain ⟨hrunning, hports⟩ := ports_of_endsAfter (n := 25) (by decide) hq h0 hs hends
    rw [ticksOfRows_write kind b 0] at hrunning
    rw [ticksOfRows_write kind b 1, portsOut_sent] at hports
    exact ⟨hrunning, hports⟩
  · have hends := endsAfter_of_busy (s := onPorts p c.core) hs (hok 8) ((polledByte_onPorts p c.core).symm ▸ hbusy)
    obtain ⟨-, hports⟩ := ports_of_endsAfter (n := 12) (by decide) hq h0 hs hends
    rw [ticksOfRows_poll _ 1, portsOut_polled] at hports
    exact hports

end Sys2Proof.Machine
